-- ==== Sys2Proof/Word.lean ====
section
/-! DEFINITION. The word types of the device (00_scope.md R5; 30_encoding.md R50). -/

namespace Sys2Proof

/-- The width of every register and every bus transfer: 8 bits (00_scope.md R5). -/
abbrev Byte := BitVec 8

/-- The 12-bit operation word `class(2) sel(2) d(8)` (30_encoding.md R50). -/
abbrev OpWord := BitVec 12

end Sys2Proof
end

