-- ==== Sys2Proof/Config.lean ====
section
/-! DEFINITION. The parameters of the device (00_scope.md section 4, rule R5).
`DATA_WIDTH`, `NUM_PORTS`, `NUM_REGS`, `NUM_GROUPS` and `GROUP_ID_WIDTH` are fixed by the types `Byte`, `Port`,
`BitVec 2` (the bus offset), `Group` and `Byte` (the raw group identifier). -/

namespace Sys2Proof

/-- `SENTINEL`: a suppressed read, a read of the control register, the data of the level-1 output-buffer event. -/
def Config.sentinel : Byte := 0xFF

/-- `RESET_CW`: the control word after reset, all ports Mode 0 input. -/
def Config.resetControlWord : Byte := 0x9B

/-- `MODE0_DIRECTION_GATED`: Mode 0 accesses of Port A and B are judged by the port's direction
(41_access_policy.md R82, decision D1, conflict C1; log entry 5). -/
def Config.mode0DirectionGated : Bool := true

/-- `CW_CLEARS_FLAGS`: every `MODESET` clears the handshake flags
(40_control_decoder.md R74, decision D2, conflict C3; log entry 6). -/
def Config.cwClearsFlags : Bool := true

/-- `BASE`: where the host places the register window; open, and read by no rule (20_memory.md R31, decision D16;
log entry 7). It has no body, so nothing can be proved of its value. -/
opaque Config.base : Nat

end Sys2Proof
end

