-- ==== Sys2Proof/Syntax.lean ====
section
/-! DEFINITION. Ports, groups and the fifteen operations of the device (30_encoding.md R51, R62). -/

namespace Sys2Proof

/-- The three I/O ports; `A = 0`, `B = 1`, `C = 2` on the bus (30_encoding.md R62). -/
inductive Port where
  | A
  | B
  | C
  deriving DecidableEq, Repr

/-- The two port groups; `A = 0`, `B = 1`, and group `g` owns port `g` (30_encoding.md R62). -/
inductive Group where
  | A
  | B
  deriving DecidableEq, Repr

/-- The complete operation set, one constructor per row of the opcode table (30_encoding.md R51). -/
inductive Instr where
  /-- `RDA`: bus read of Port A (43_port_access.md R121). -/
  | rda
  /-- `RDB`: bus read of Port B (43_port_access.md R122). -/
  | rdb
  /-- `RDC`: bus read of Port C (43_port_access.md R123). -/
  | rdc
  /-- `RDCW`: bus read of the control register (43_port_access.md R124). -/
  | rdcw
  /-- `WRA v`: bus write of Port A (43_port_access.md R126). -/
  | wra (v : Byte)
  /-- `WRB v`: bus write of Port B (43_port_access.md R127). -/
  | wrb (v : Byte)
  /-- `WRC v`: bus write of Port C (43_port_access.md R128). -/
  | wrc (v : Byte)
  /-- `MODESET v`, `v[7] = 1`: a Standard-format control byte (40_control_decoder.md R71). -/
  | modeset (v : Byte)
  /-- `BSR v`, `v[7] = 0`: a bit set/reset control byte; bits 6:4 are kept and ignored (40_control_decoder.md R72). -/
  | bsr (v : Byte)
  /-- `STB g`: external strobe pulse, raw group identifier `g` (42_handshake.md R103). -/
  | stb (g : Byte)
  /-- `ACK g`: external acknowledge pulse, raw group identifier `g` (42_handshake.md R106). -/
  | ack (g : Byte)
  /-- `RESET`: the power-on default (70_reset_and_hazards.md R160). -/
  | reset
  /-- `SETINA v`: the peer drives `v` onto the pins of Port A (43_port_access.md R130). -/
  | setina (v : Byte)
  /-- `SETINB v`: the peer drives `v` onto the pins of Port B (43_port_access.md R130). -/
  | setinb (v : Byte)
  /-- `SETINC v`: the peer drives `v` onto the pins of Port C (43_port_access.md R130). -/
  | setinc (v : Byte)
  deriving DecidableEq, Repr

/-- The mnemonic of an operation, as the opcode table spells it. -/
def Instr.mnemonic : Instr → String
  | .rda => "RDA"
  | .rdb => "RDB"
  | .rdc => "RDC"
  | .rdcw => "RDCW"
  | .wra _ => "WRA"
  | .wrb _ => "WRB"
  | .wrc _ => "WRC"
  | .modeset _ => "MODESET"
  | .bsr _ => "BSR"
  | .stb _ => "STB"
  | .ack _ => "ACK"
  | .reset => "RESET"
  | .setina _ => "SETINA"
  | .setinb _ => "SETINB"
  | .setinc _ => "SETINC"

end Sys2Proof
end

