-- ==== Sys2Proof/WellFormed.lean ====
section
/-! DEFINITION. Which terms of `Instr` are operations of the device: the two control-byte formats are told apart by
bit 7 of the byte (30_encoding.md R52); every other operand takes all 256 values (R59, R61; 00_scope.md R6). -/

namespace Sys2Proof

/-- An operand is one its encoding admits: `MODESET` has `v[7] = 1`, `BSR` has `v[7] = 0` (30_encoding.md R53, R54). -/
def Instr.wf : Instr → Bool
  | .modeset v => v.getLsbD 7
  | .bsr v => !v.getLsbD 7
  | .rda => true
  | .rdb => true
  | .rdc => true
  | .rdcw => true
  | .wra _ => true
  | .wrb _ => true
  | .wrc _ => true
  | .stb _ => true
  | .ack _ => true
  | .reset => true
  | .setina _ => true
  | .setinb _ => true
  | .setinc _ => true

end Sys2Proof
end

