-- ==== Sys2Proof/Decode.lean ====
section
/-! DEFINITION. The operation word read and written (30_encoding.md R50 to R67), and the opcode table as rows. -/

namespace Sys2Proof

/-- Why a word spells no operation (30_encoding.md R60). -/
inductive DecodeError where
  /-- `10 11 xxxxxxxx`, 0xB00 to 0xBFF: no such event kind. -/
  | noSuchEventKind (w : OpWord)
  /-- `11 11 xxxxxxxx`, 0xF00 to 0xFFF: an input drive to offset 3, which has no input pins. -/
  | noInputPinsAtOffset3 (w : OpWord)
  deriving DecidableEq, Repr

/-- Bits 7:0 of the operation word, the field `d` (30_encoding.md R50). -/
def opData (w : OpWord) : Byte := w.extractLsb' 0 8

/-- A control byte is classified by bit 7 alone (30_encoding.md R52, 40_control_decoder.md R70).
This is also the pseudo-operation `WRCW v` (30_encoding.md R66). -/
def decodeControl (v : Byte) : Instr :=
  if v.getLsbD 7 then .modeset v else .bsr v

/-- The decode procedure, by bits 11, 10 (class) and 9, 8 (sel); total on any word (30_encoding.md R63). -/
def decode (w : OpWord) : Except DecodeError Instr :=
  match w.getLsbD 11, w.getLsbD 10, w.getLsbD 9, w.getLsbD 8 with
  | false, false, false, false => .ok .rda
  | false, false, false, true => .ok .rdb
  | false, false, true, false => .ok .rdc
  | false, false, true, true => .ok .rdcw
  | false, true, false, false => .ok (.wra (opData w))
  | false, true, false, true => .ok (.wrb (opData w))
  | false, true, true, false => .ok (.wrc (opData w))
  | false, true, true, true => .ok (decodeControl (opData w))
  | true, false, false, false => .ok (.stb (opData w))
  | true, false, false, true => .ok (.ack (opData w))
  | true, false, true, false => .ok .reset
  | true, false, true, true => .error (.noSuchEventKind w)
  | true, true, false, false => .ok (.setina (opData w))
  | true, true, false, true => .ok (.setinb (opData w))
  | true, true, true, false => .ok (.setinc (opData w))
  | true, true, true, true => .error (.noInputPinsAtOffset3 w)

/-- The operation word of its three fields (30_encoding.md R50). -/
def opWord (cls sel : BitVec 2) (d : Byte) : OpWord := cls ++ sel ++ d

/-- The word of an operation (30_encoding.md R51); ignored bits are written 0 (R64). -/
def encode : Instr → OpWord
  | .rda => opWord 0b00 0b00 0
  | .rdb => opWord 0b00 0b01 0
  | .rdc => opWord 0b00 0b10 0
  | .rdcw => opWord 0b00 0b11 0
  | .wra v => opWord 0b01 0b00 v
  | .wrb v => opWord 0b01 0b01 v
  | .wrc v => opWord 0b01 0b10 v
  | .modeset v => opWord 0b01 0b11 v
  | .bsr v => opWord 0b01 0b11 v
  | .stb g => opWord 0b10 0b00 g
  | .ack g => opWord 0b10 0b01 g
  | .reset => opWord 0b10 0b10 0
  | .setina v => opWord 0b11 0b00 v
  | .setinb v => opWord 0b11 0b01 v
  | .setinc v => opWord 0b11 0b10 v

/-- One row of the opcode table: a word matches it when `w AND mask = match` (30_encoding.md R51). -/
structure OpcodeRow where
  /-- the mnemonic, as the table spells it -/
  mnemonic : String
  /-- the fixed bits -/
  pattern : OpWord
  /-- which bits are fixed -/
  mask : OpWord
  /-- the operation that the row spells with the low byte of the word -/
  instr : Byte → Instr

/-- The word belongs to the row. -/
def OpcodeRow.matchesWord (r : OpcodeRow) (w : OpWord) : Bool := w &&& r.mask == r.pattern

/-- The opcode table of the spec, row by row (30_encoding.md R51). -/
def opcodeTable : List OpcodeRow :=
  [ ⟨"RDA", 0x000, 0xF00, fun _ => .rda⟩,
    ⟨"RDB", 0x100, 0xF00, fun _ => .rdb⟩,
    ⟨"RDC", 0x200, 0xF00, fun _ => .rdc⟩,
    ⟨"RDCW", 0x300, 0xF00, fun _ => .rdcw⟩,
    ⟨"WRA", 0x400, 0xF00, .wra⟩,
    ⟨"WRB", 0x500, 0xF00, .wrb⟩,
    ⟨"WRC", 0x600, 0xF00, .wrc⟩,
    ⟨"MODESET", 0x780, 0xF80, .modeset⟩,
    ⟨"BSR", 0x700, 0xF80, .bsr⟩,
    ⟨"STB", 0x800, 0xF00, .stb⟩,
    ⟨"ACK", 0x900, 0xF00, .ack⟩,
    ⟨"RESET", 0xA00, 0xF00, fun _ => .reset⟩,
    ⟨"SETINA", 0xC00, 0xF00, .setina⟩,
    ⟨"SETINB", 0xD00, 0xF00, .setinb⟩,
    ⟨"SETINC", 0xE00, 0xF00, .setinc⟩ ]

/-- The operation word held in the `nbits` low bits of a number: its 12 low bits. The bits that pad 12 to whole bytes
are no part of an operation word (30_encoding.md R50; log entry 2). -/
def tableWord (nbits w : Nat) : OpWord := BitVec.ofNat 12 (w % 2 ^ nbits)

/-- The instruction the decoder reads from an opcode-table word. -/
def decodeTableWord (nbits w : Nat) : Option Instr := (decode (tableWord nbits w)).toOption

end Sys2Proof
end

