-- ==== Sys2Proof/Machine/State.lean ====
section
/-! DEFINITION. The state of the device (10_state.md), the answer of an operation, and reset. -/

namespace Sys2Proof.Machine

/-- The four modes of Port A (10_state.md R14). -/
inductive Mode where
  | mode0
  | mode1Input
  | mode1Output
  | mode2
  deriving DecidableEq, Repr

/-- The three modes of Port B, which "never supports Mode2" (10_state.md R14). -/
inductive ModeB where
  | mode0
  | mode1Input
  | mode1Output
  deriving DecidableEq, Repr

/-- One byte per port: `x[A]`, `x[B]`, `x[C]`. -/
structure PortBytes where
  a : Byte
  b : Byte
  c : Byte
  deriving DecidableEq, Repr

/-- One flip-flop per group: `x[0]` of group A, `x[1]` of group B. -/
structure GroupBits where
  a : Bool
  b : Bool
  deriving DecidableEq, Repr

/-- The output events (10_state.md R18). A level is a 1-bit flag, `true` for the integer 1 (00_scope.md R6). -/
inductive Event where
  /-- input-buffer-full changed -/
  | ibf (g : Group) (level : Bool)
  /-- output-buffer-full changed, with its data byte -/
  | obf (g : Group) (level : Bool) (data : Byte)
  /-- interrupt request changed -/
  | intr (g : Group) (level : Bool)
  /-- strobe changed: declared, emitted by no rule (42_handshake.md R111) -/
  | stbch (g : Group) (level : Bool)
  /-- acknowledge changed: declared, emitted by no rule (42_handshake.md R111) -/
  | ackch (g : Group) (level : Bool)
  deriving DecidableEq, Repr

/-- The kind of a bus access, the `op` of the access policy (41_access_policy.md R81). -/
inductive Access where
  | read
  | write
  deriving DecidableEq, Repr

/-- The four outcomes of the access policy (41_access_policy.md R80). -/
inductive PolicyOutcome where
  | ok
  | warn
  | illegal
  | unknown
  deriving DecidableEq, Repr

/-- The advisory value of an operation: the policy's outcome of a port access (41_access_policy.md R90) or the format
of a control write (40_control_decoder.md R73). No rule reads it. -/
inductive Diag where
  | ok
  | warn
  | illegal
  | unknown
  | standard
  | bsr
  deriving DecidableEq, Repr

/-- What one operation gives back besides the new state (00_scope.md R4): the return byte of a read, the ordered
events, and the advisory outcome. -/
structure Answer where
  ret : Option Byte
  events : List Event
  diag : Option Diag
  deriving DecidableEq, Repr

/-- The answer that gives nothing. -/
def Answer.empty : Answer := { ret := none, events := [], diag := none }

/-- The whole state: the fields of 10_state.md section 1, then the model's own `answer` and `pending`. -/
structure State where
  /-- `latch[p]` (R10) -/
  latch : PortBytes
  /-- `out[p]`, the byte the device drives (R11) -/
  out : PortBytes
  /-- `in[p]`, the byte the peer last drove (R12) -/
  inp : PortBytes
  /-- `cw`, the last Standard-format control byte (R13) -/
  cw : Byte
  /-- `modeA` (R14) -/
  modeA : Mode
  /-- `modeB` (R14) -/
  modeB : ModeB
  /-- `aIn`: Port A is an input (R15) -/
  aIn : Bool
  /-- `bIn`: Port B is an input (R15) -/
  bIn : Bool
  /-- `cuIn`: the upper nibble of Port C is an input (R15) -/
  cuIn : Bool
  /-- `clIn`: the lower nibble of Port C is an input (R15) -/
  clIn : Bool
  /-- `ibf[g]`, input buffer full (R16) -/
  ibf : GroupBits
  /-- `obf[g]`, output buffer full; false after a CPU write, true after an acknowledge (R16, conflict C5) -/
  obf : GroupBits
  /-- `intr[g]`, interrupt request (R16) -/
  intr : GroupBits
  /-- `stbActive[g]`, held false (R17; log entry 8) -/
  stbActive : GroupBits
  /-- the answer of the last step (00_scope.md R4; log entry 3) -/
  answer : Answer
  /-- the operation words presented by the host and not yet performed, oldest first (10_state.md R23; log entry 1) -/
  pending : List OpWord
  deriving DecidableEq, Repr

/-- The device has no fault: "There are no fatal errors and no exceptions in this model" (60_exceptions.md R140). -/
inductive Fault where
  deriving DecidableEq, Repr

/-- Why the machine refuses a step. -/
inductive Refusal where
  /-- Raised by an arm of `exec` that has no meaning yet; no arm raises it here. Safe. -/
  | notModelled (mnemonic : String)
  /-- Raised by `step` when the next word spells no operation: "a decoder returns invalid for them and a model refuses
  them; no behaviour of the device is attached to them" (30_encoding.md R60). Safe. -/
  | reservedWord (why : DecodeError)
  deriving DecidableEq, Repr

/-- The state after reset, every device field as 10_state.md R25 states it; nothing presented, nothing answered. -/
def State.reset : State where
  latch := ⟨0x00, 0x00, 0x00⟩
  out := ⟨0x00, 0x00, 0x00⟩
  inp := ⟨0x00, 0x00, 0x00⟩
  cw := Config.resetControlWord
  modeA := .mode0
  modeB := .mode0
  aIn := true
  bIn := true
  cuIn := true
  clIn := true
  ibf := ⟨false, false⟩
  obf := ⟨false, false⟩
  intr := ⟨false, false⟩
  stbActive := ⟨false, false⟩
  answer := Answer.empty
  pending := []

end Sys2Proof.Machine
end

