-- ==== Sys2Proof/Machine/Operands.lean ====
section
/-! DEFINITION. Operand forms: ports and groups, the fields of a control byte, the raw group identifier, and the byte
an access moves (30_encoding.md R52 to R62; 41_access_policy.md R80). -/

namespace Sys2Proof.Machine

/-- Element `x[p]` of a port register array. -/
def PortBytes.get (x : PortBytes) : Port → Byte
  | .A => x.a
  | .B => x.b
  | .C => x.c

/-- `x[p] <- v`. -/
def PortBytes.set (x : PortBytes) (p : Port) (v : Byte) : PortBytes :=
  match p with
  | .A => { x with a := v }
  | .B => { x with b := v }
  | .C => { x with c := v }

/-- Element `x[g]` of a flip-flop pair. -/
def GroupBits.get (x : GroupBits) : Group → Bool
  | .A => x.a
  | .B => x.b

/-- `x[g] <- v`. -/
def GroupBits.set (x : GroupBits) (g : Group) (v : Bool) : GroupBits :=
  match g with
  | .A => { x with a := v }
  | .B => { x with b := v }

/-- The port a group owns (30_encoding.md R62). -/
def groupPort : Group → Port
  | .A => .A
  | .B => .B

/-- The port of a facade index; 3 is the control register and a higher index names nothing (30_encoding.md R62,
20_memory.md R32). -/
def portAt : Nat → Option Port
  | 0 => some .A
  | 1 => some .B
  | 2 => some .C
  | _ => none

/-- The group of a raw identifier, "taken modulo 2", that is its bit 0 (30_encoding.md R61). -/
def groupOf (g : Byte) : Group := if g.getLsbD 0 then .B else .A

/-- `MA = v[6:5]` (30_encoding.md R53). -/
def controlMA (v : Byte) : BitVec 2 := v.extractLsb' 5 2

/-- `DA = v[4]`, 1 for input (30_encoding.md R53, R57). -/
def controlDA (v : Byte) : Bool := v.getLsbD 4

/-- `DCU = v[3]`, 1 for input (30_encoding.md R53, R57). -/
def controlDCU (v : Byte) : Bool := v.getLsbD 3

/-- `MB = v[2]` (30_encoding.md R53). -/
def controlMB (v : Byte) : Bool := v.getLsbD 2

/-- `DB = v[1]`, 1 for input (30_encoding.md R53, R57). -/
def controlDB (v : Byte) : Bool := v.getLsbD 1

/-- `DCL = v[0]`, 1 for input (30_encoding.md R53, R57). -/
def controlDCL (v : Byte) : Bool := v.getLsbD 0

/-- Port A's mode, from `MA` and the `DA` of the same byte (30_encoding.md R55). -/
def decodeModeA (v : Byte) : Mode :=
  if controlMA v = 0b00#2 then .mode0
  else if controlMA v = 0b01#2 then (if controlDA v then .mode1Input else .mode1Output)
  else .mode2

/-- Port B's mode, from `MB` and the `DB` of the same byte (30_encoding.md R56). -/
def decodeModeB (v : Byte) : ModeB :=
  if controlMB v then (if controlDB v then .mode1Input else .mode1Output) else .mode0

/-- `N = v[3:1]` of a BSR byte, 0 to 7 (30_encoding.md R54). -/
def bsrBitNumber (v : Byte) : Nat := (v.extractLsb' 1 3).toNat

/-- `S = v[0]` of a BSR byte, 1 for set (30_encoding.md R54). -/
def bsrSet (v : Byte) : Bool := v.getLsbD 0

/-- `x with bit n <- b`, on 8 bits: `x OR (1 << n)` or `x AND NOT (1 << n)` (00_scope.md R6). -/
def withBit (x : Byte) (n : Nat) (b : Bool) : Byte :=
  if b then x ||| ((1 : Byte) <<< n) else x &&& ~~~((1 : Byte) <<< n)

/-- The return byte of a read by its outcome (41_access_policy.md R80, 43_port_access.md R120). -/
def returnByte (o : PolicyOutcome) (live latched : Byte) : Byte :=
  match o with
  | .ok => live
  | .warn => latched
  | .illegal => Config.sentinel
  | .unknown => Config.sentinel

/-- Whether a write of this outcome reaches the output register (41_access_policy.md R80, 43_port_access.md R125). -/
def transfersOnWrite : PolicyOutcome → Bool
  | .ok => true
  | .warn => true
  | .illegal => false
  | .unknown => false

/-- The policy's outcome as the advisory value (41_access_policy.md R90). -/
def outcomeDiag : PolicyOutcome → Diag
  | .ok => .ok
  | .warn => .warn
  | .illegal => .illegal
  | .unknown => .unknown

end Sys2Proof.Machine
end

