-- ==== Sys2Proof/Machine/Flags.lean ====
section
/-! DEFINITION. The handshake flip-flops (10_state.md R16): what each transition and each clear does to them. Each
group's triple `(ibf, obf, intr)` is three independent bits (42_handshake.md R101); nothing enables or masks `intr`
(42_handshake.md R114). -/

namespace Sys2Proof.Machine

/-- The flags an accepted strobe sets: `ibf[g]` and `intr[g]` (42_handshake.md R103). -/
def State.strobeFlags (s : State) (g : Group) : State :=
  { s with ibf := s.ibf.set g true, intr := s.intr.set g true }

/-- The flags a CPU read clears: `ibf[g]` and `intr[g]` (42_handshake.md R104). -/
def State.cpuReadFlags (s : State) (g : Group) : State :=
  { s with ibf := s.ibf.set g false, intr := s.intr.set g false }

/-- The flags of a CPU write: `obf[g]` cleared, `intr[g]` set (42_handshake.md R105). -/
def State.cpuWriteFlags (s : State) (g : Group) : State :=
  { s with obf := s.obf.set g false, intr := s.intr.set g true }

/-- The flags of an acknowledge: `obf[g]` set, `intr[g]` cleared (42_handshake.md R106). -/
def State.ackFlags (s : State) (g : Group) : State :=
  { s with obf := s.obf.set g true, intr := s.intr.set g false }

/-- What a Standard-format control write does to the flags of both groups: it clears them where `clears` is true
(40_control_decoder.md R74), and leaves them under the other reading (decision D2). -/
def State.controlWriteFlags (s : State) (clears : Bool) : State :=
  if clears then
    { s with
      ibf := ⟨false, false⟩, obf := ⟨false, false⟩, intr := ⟨false, false⟩, stbActive := ⟨false, false⟩ }
  else s

end Sys2Proof.Machine
end

