-- ==== Sys2Proof/Machine/Ops.lean ====
section
/-! DEFINITION. The named operations that the meanings share: events, the access policy, the handshake transitions, the
port accesses, the control write, the register map, and the stream of presented operations.
There is no operation here for taking an exception or returning from one: the device has none (60_exceptions.md R140,
R148, R149). -/

namespace Sys2Proof.Machine

/-! ### The answer of an operation -/

/-- An operation begins with an empty answer (00_scope.md R4). -/
def State.beginOp (s : State) : State := { s with answer := Answer.empty }

/-- `emit e`: append an event to the operation's list (10_state.md R18). -/
def State.emit (s : State) (e : Event) : State :=
  { s with answer := { s.answer with events := s.answer.events ++ [e] } }

/-- `return v`: the byte a read gives the bus master. -/
def State.giveByte (s : State) (v : Byte) : State := { s with answer := { s.answer with ret := some v } }

/-- `diag <- d`: the advisory outcome (41_access_policy.md R90). -/
def State.giveDiag (s : State) (d : Diag) : State := { s with answer := { s.answer with diag := some d } }

/-! ### State access by port and group (00_scope.md section 5) -/

/-- Port B's mode among the four. -/
def ModeB.asMode : ModeB → Mode
  | .mode0 => .mode0
  | .mode1Input => .mode1Input
  | .mode1Output => .mode1Output

/-- `mode(g)`. -/
def State.mode (s : State) : Group → Mode
  | .A => s.modeA
  | .B => s.modeB.asMode

/-- `isIn(g)`. -/
def State.isIn (s : State) : Group → Bool
  | .A => s.aIn
  | .B => s.bIn

/-- `latch[p] <- v`. -/
def State.setLatch (s : State) (p : Port) (v : Byte) : State := { s with latch := s.latch.set p v }

/-- `out[p] <- v`; the whole byte, never masked by direction (10_state.md R11). -/
def State.setOut (s : State) (p : Port) (v : Byte) : State := { s with out := s.out.set p v }

/-- `in[p] <- v`. -/
def State.setInp (s : State) (p : Port) (v : Byte) : State := { s with inp := s.inp.set p v }

/-! ### The handshake transitions (42_handshake.md R103 to R106) -/

/-- The guard of a strobe: Mode 1 Input with the input buffer not full (42_handshake.md R103). -/
def State.strobeAccepted (s : State) (g : Group) : Bool := s.mode g = .mode1Input && !s.ibf.get g

/-- External strobe of group `g`: latch update, then interrupt bookkeeping, then the two events
(42_handshake.md R103, R108). -/
def strobe (g : Group) (s : State) : State :=
  if s.strobeAccepted g then
    (((s.setLatch (groupPort g) (s.inp.get (groupPort g))).strobeFlags g).emit (.ibf g true)).emit (.intr g true)
  else s

/-- CPU-read transition of group `g`; it has no guard (42_handshake.md R104, R110). -/
def cpuRead (g : Group) (s : State) : State :=
  ((s.cpuReadFlags g).emit (.ibf g false)).emit (.intr g false)

/-- CPU-write transition of group `g`; the event carries the byte just placed on the port (42_handshake.md R105). -/
def cpuWrite (g : Group) (s : State) : State :=
  let t := (s.cpuWriteFlags g).setOut (groupPort g) (s.latch.get (groupPort g))
  (t.emit (.obf g false (t.out.get (groupPort g)))).emit (.intr g true)

/-- External acknowledge of group `g`: a transition in Mode 1 Output only, with no guard on the old flags
(42_handshake.md R106). -/
def acknowledge (g : Group) (s : State) : State :=
  if s.mode g = .mode1Output then
    ((s.ackFlags g).emit (.obf g true Config.sentinel)).emit (.intr g false)
  else s

/-! ### The access policy (41_access_policy.md) -/

/-- Port A or B in Mode 0: gated by the port's direction (41_access_policy.md R82), or "always Ok" under the other
reading of conflict C1 (`gated = false`). -/
def mode0Outcome (gated isIn : Bool) (op : Access) : PolicyOutcome :=
  if gated then
    match isIn, op with
    | true, .read => .ok
    | true, .write => .illegal
    | false, .read => .warn
    | false, .write => .ok
  else .ok

/-- Port A in Mode 2: a read needs `ibf[0]`, a write needs `obf[0]` false (41_access_policy.md R85). -/
def mode2Outcome (ibf0 obf0 : Bool) (op : Access) : PolicyOutcome :=
  match op with
  | .read => if ibf0 then .ok else .illegal
  | .write => if obf0 then .illegal else .ok

/-- Port C: a write is illegal only when both nibbles are inputs, a read is always `Ok` (41_access_policy.md R86). -/
def portCOutcome (cuIn clIn : Bool) (op : Access) : PolicyOutcome :=
  match op with
  | .read => .ok
  | .write => if cuIn && clIn then .illegal else .ok

/-- The policy of Port A or B, with the transition it performs (41_access_policy.md R81 to R85). `modeB` has no Mode 2
(10_state.md R14), so the last arm is reached for Port A only. -/
def groupPolicy (g : Group) (op : Access) (s : State) : PolicyOutcome × State :=
  match s.mode g, op with
  | .mode0, op => (mode0Outcome Config.mode0DirectionGated (s.isIn g) op, s)
  | .mode1Input, .read => (.ok, cpuRead g s)
  | .mode1Input, .write => (.illegal, s)
  | .mode1Output, .read => (.warn, s)
  | .mode1Output, .write => (.ok, cpuWrite g s)
  | .mode2, op => (mode2Outcome (s.ibf.get .A) (s.obf.get .A) op, s)

/-- The access policy of a port: its outcome and the state after its side effect (41_access_policy.md R81). -/
def policy (p : Port) (op : Access) (s : State) : PolicyOutcome × State :=
  match p with
  | .A => groupPolicy .A op s
  | .B => groupPolicy .B op s
  | .C => (portCOutcome s.cuIn s.clIn op, s)

/-- The access policy of a port index: any index but 0, 1 and 2 is `Unknown` (41_access_policy.md R81, R87). -/
def policyAt (i : Nat) (op : Access) (s : State) : PolicyOutcome × State :=
  match portAt i with
  | some p => policy p op s
  | none => (.unknown, s)

/-! ### The port accesses (43_port_access.md) -/

/-- Bus read of a port: the policy first, then the byte its outcome picks (43_port_access.md R120, 20_memory.md R40). -/
def readPort (p : Port) (s : State) : State :=
  let r := policy p .read s
  (r.2.giveDiag (outcomeDiag r.1)).giveByte (returnByte r.1 (r.2.inp.get p) (r.2.latch.get p))

/-- Bus write of a port: the latch unconditionally, then the policy, then the transfer (43_port_access.md R125,
20_memory.md R40). -/
def writePort (p : Port) (v : Byte) (s : State) : State :=
  let r := policy p .write (s.setLatch p v)
  let t := r.2.giveDiag (outcomeDiag r.1)
  if transfersOnWrite r.1 then t.setOut p v else t

/-- Bus read of the control register: 0xFF unconditionally, the policy not asked (43_port_access.md R124). -/
def readControl (s : State) : State := s.giveByte Config.sentinel

/-- The peer drives a byte onto a port's pins (43_port_access.md R130). -/
def driveInput (p : Port) (v : Byte) (s : State) : State := s.setInp p v

/-! ### The control-word decoder (40_control_decoder.md) -/

/-- Standard format: `cw`, modes and directions from the one byte, then the flags (40_control_decoder.md R71, R74). -/
def applyStandard (v : Byte) (s : State) : State :=
  (({ s with
      cw := v
      clIn := controlDCL v
      bIn := controlDB v
      cuIn := controlDCU v
      aIn := controlDA v
      modeB := decodeModeB v
      modeA := decodeModeA v } : State).controlWriteFlags Config.cwClearsFlags).giveDiag .standard

/-- BSR format: one bit of `latch[C]`, and nothing of `out[C]` (40_control_decoder.md R72, R76). -/
def applyBsr (v : Byte) (s : State) : State :=
  (s.setLatch .C (withBit (s.latch.get .C) (bsrBitNumber v) (bsrSet v))).giveDiag .bsr

/-- A write of the control register: bit 7 alone chooses the format (40_control_decoder.md R70). -/
def controlWrite (v : Byte) (s : State) : State :=
  if v.getLsbD 7 then applyStandard v s else applyBsr v s

/-! ### Reset (70_reset_and_hazards.md) -/

/-- Every device field to its reset value, with no event (70_reset_and_hazards.md R160, R161). The words that the host
has presented are no state of the device and stay (log entry 1). -/
def resetDevice (s : State) : State := { State.reset with pending := s.pending }

/-! ### The register map (20_memory.md R30) with the facade's wider index (R32) -/

/-- `MemRead(addr, 1)`: offsets 0 to 2 are the ports, 3 the control register; a higher index is `Unknown` and reads
0xFF (20_memory.md R30, R32). -/
def memRead (addr : Nat) (s : State) : State :=
  match portAt addr with
  | some p => readPort p s.beginOp
  | none =>
    if addr = 3 then readControl s.beginOp
    else
      let r := policyAt addr .read s.beginOp
      (r.2.giveDiag (outcomeDiag r.1)).giveByte (returnByte r.1 Config.sentinel Config.sentinel)

/-- `MemWrite(addr, 1, v)`: offsets 0 to 2 are the ports, 3 the control register; a write to a higher index changes
nothing at all (20_memory.md R30, R32). -/
def memWrite (addr : Nat) (v : Byte) (s : State) : State :=
  match portAt addr with
  | some p => writePort p v s.beginOp
  | none =>
    if addr = 3 then controlWrite v s.beginOp
    else
      let r := policyAt addr .write s.beginOp
      r.2.giveDiag (outcomeDiag r.1)

/-! ### The stream of presented operations (10_state.md R23; log entry 1) -/

/-- Take the oldest presented word, if there is one. -/
def fetch (s : State) : Option (OpWord × State) :=
  match s.pending with
  | [] => none
  | w :: rest => some (w, { s with pending := rest })

/-- The host presents a word as the next operation. -/
def present (w : OpWord) (s : State) : State := { s with pending := w :: s.pending }

/-- A step in which nothing is presented: the device never acts on its own (00_scope.md R3), so no field of it changes
and the answer is empty (log entry 3). -/
def idle (s : State) : State := s.beginOp

end Sys2Proof.Machine
end

