-- ==== Sys2Proof/Machine/ControlWord.lean ====
section
/-! DEFINITION. The control-word decoder's operations `MODESET BSR` (40_control_decoder.md). -/

namespace Sys2Proof.Machine

/-- `MODESET v` (40_control_decoder.md R71, R74, R75). -/
def execModeset (v : Byte) (s : State) : Host.Outcome State Fault Refusal := .next (applyStandard v s.beginOp)

/-- `BSR v` (40_control_decoder.md R72, R76). -/
def execBsr (v : Byte) (s : State) : Host.Outcome State Fault Refusal := .next (applyBsr v s.beginOp)

end Sys2Proof.Machine
end

