-- ==== Sys2Proof/Machine/Handshake.lean ====
section
/-! DEFINITION. The peer's pulses `STB ACK` (42_handshake.md). -/

namespace Sys2Proof.Machine

/-- `STB g` (42_handshake.md R103). -/
def execStb (g : Byte) (s : State) : Host.Outcome State Fault Refusal := .next (strobe (groupOf g) s.beginOp)

/-- `ACK g` (42_handshake.md R106). -/
def execAck (g : Byte) (s : State) : Host.Outcome State Fault Refusal := .next (acknowledge (groupOf g) s.beginOp)

end Sys2Proof.Machine
end

