-- ==== Sys2Proof/Machine/InputDrive.lean ====
section
/-! DEFINITION. The input drive `SETINA SETINB SETINC` (43_port_access.md section 3). -/

namespace Sys2Proof.Machine

/-- `SETINA v` (43_port_access.md R130). -/
def execSetina (v : Byte) (s : State) : Host.Outcome State Fault Refusal := .next (driveInput .A v s.beginOp)

/-- `SETINB v` (43_port_access.md R130). -/
def execSetinb (v : Byte) (s : State) : Host.Outcome State Fault Refusal := .next (driveInput .B v s.beginOp)

/-- `SETINC v` (43_port_access.md R130). -/
def execSetinc (v : Byte) (s : State) : Host.Outcome State Fault Refusal := .next (driveInput .C v s.beginOp)

end Sys2Proof.Machine
end

