-- ==== Sys2Proof/Machine/PortReads.lean ====
section
/-! DEFINITION. The bus reads `RDA RDB RDC RDCW` (43_port_access.md section 1). -/

namespace Sys2Proof.Machine

/-- `RDA` (43_port_access.md R121). -/
def execRda (s : State) : Host.Outcome State Fault Refusal := .next (readPort .A s.beginOp)

/-- `RDB` (43_port_access.md R122). -/
def execRdb (s : State) : Host.Outcome State Fault Refusal := .next (readPort .B s.beginOp)

/-- `RDC` (43_port_access.md R123). -/
def execRdc (s : State) : Host.Outcome State Fault Refusal := .next (readPort .C s.beginOp)

/-- `RDCW` (43_port_access.md R124). -/
def execRdcw (s : State) : Host.Outcome State Fault Refusal := .next (readControl s.beginOp)

end Sys2Proof.Machine
end

