-- ==== Sys2Proof/Machine/PortWrites.lean ====
section
/-! DEFINITION. The bus writes `WRA WRB WRC` (43_port_access.md section 2). -/

namespace Sys2Proof.Machine

/-- `WRA v` (43_port_access.md R126). -/
def execWra (v : Byte) (s : State) : Host.Outcome State Fault Refusal := .next (writePort .A v s.beginOp)

/-- `WRB v` (43_port_access.md R127). -/
def execWrb (v : Byte) (s : State) : Host.Outcome State Fault Refusal := .next (writePort .B v s.beginOp)

/-- `WRC v` (43_port_access.md R128). -/
def execWrc (v : Byte) (s : State) : Host.Outcome State Fault Refusal := .next (writePort .C v s.beginOp)

end Sys2Proof.Machine
end

