-- ==== Sys2Proof/Machine/Reset.lean ====
section
/-! DEFINITION. The operation `RESET` (70_reset_and_hazards.md section 1). -/

namespace Sys2Proof.Machine

/-- `RESET` (70_reset_and_hazards.md R160, R161). -/
def execReset (s : State) : Host.Outcome State Fault Refusal := .next (resetDevice s.beginOp)

end Sys2Proof.Machine
end

