-- ==== Sys2Proof/Machine/Dispatch.lean ====
section
/-! DEFINITION. One arm per operation; nothing else. -/

namespace Sys2Proof.Machine

/-- The meaning of every operation (43_port_access.md section 4). -/
def exec (i : Instr) (s : State) : Host.Outcome State Fault Refusal :=
  match i with
  | .rda => Sys2Proof.Machine.execRda s
  | .rdb => Sys2Proof.Machine.execRdb s
  | .rdc => Sys2Proof.Machine.execRdc s
  | .rdcw => Sys2Proof.Machine.execRdcw s
  | .wra v => Sys2Proof.Machine.execWra v s
  | .wrb v => Sys2Proof.Machine.execWrb v s
  | .wrc v => Sys2Proof.Machine.execWrc v s
  | .modeset v => Sys2Proof.Machine.execModeset v s
  | .bsr v => Sys2Proof.Machine.execBsr v s
  | .stb g => Sys2Proof.Machine.execStb g s
  | .ack g => Sys2Proof.Machine.execAck g s
  | .reset => Sys2Proof.Machine.execReset s
  | .setina v => Sys2Proof.Machine.execSetina v s
  | .setinb v => Sys2Proof.Machine.execSetinb v s
  | .setinc v => Sys2Proof.Machine.execSetinc v s

end Sys2Proof.Machine
end

