-- ==== Sys2Proof/Machine/Step.lean ====
section
/-! DEFINITION. One step of the machine: the oldest presented operation, decoded and run. -/

namespace Sys2Proof.Machine

/-- One step. With a word presented, it is taken from the stream, decoded and run, or refused by name where it spells no
operation (30_encoding.md R60, R63). With none, the device rests (00_scope.md R3). A run is the fold of this over the
presented sequence (10_state.md R23). -/
def step (s : State) : Host.Outcome State Fault Refusal :=
  match fetch s with
  | none => .next (idle s)
  | some (w, t) =>
    match decode w with
    | .ok i => exec i t
    | .error why => .refused (.reservedWord why)

/-- The state with an opcode-table word presented as the next operation; nothing else changes (log entry 1). -/
def State.withFetchWord (s : State) (nbits w : Nat) : State := present (tableWord nbits w) s

end Sys2Proof.Machine
end

