-- ==== Sys2Proof/Machine/Interface.lean ====
section
/-! DEFINITION. How the outside meets the device: the three agents, the signals of the block, the pseudo-operations and
the trace syntax. No meaning depends on this file. -/

namespace Sys2Proof.Machine

/-! ### Agents (00_scope.md R3) -/

/-- Who performs an operation. -/
inductive Agent where
  | busMaster
  | peer
  | resetSource
  deriving DecidableEq, Repr

/-- The agent that performs an operation (00_scope.md R3). -/
def agentOf : Instr → Agent
  | .rda => .busMaster
  | .rdb => .busMaster
  | .rdc => .busMaster
  | .rdcw => .busMaster
  | .wra _ => .busMaster
  | .wrb _ => .busMaster
  | .wrc _ => .busMaster
  | .modeset _ => .busMaster
  | .bsr _ => .busMaster
  | .stb _ => .peer
  | .ack _ => .peer
  | .reset => .resetSource
  | .setina _ => .peer
  | .setinb _ => .peer
  | .setinc _ => .peer

/-! ### Signals (10_state.md R27) -/

/-- What the outside does on the input wires of the block; at most one bus transaction at a time. -/
inductive InputSignal where
  /-- `rd` with `addr` -/
  | busRead (addr : BitVec 2)
  /-- `wr` with `addr` and `wdata` -/
  | busWrite (addr : BitVec 2) (wdata : Byte)
  /-- a pulse on `stb_a` or `stb_b` -/
  | stb (g : Group)
  /-- a pulse on `ack_a` or `ack_b` -/
  | ack (g : Group)
  /-- the `reset` input -/
  | reset
  /-- a byte on `pa_in`, `pb_in` or `pc_in` -/
  | pins (p : Port) (v : Byte)
  deriving DecidableEq, Repr

/-- The number of a group: 0 for A, 1 for B (30_encoding.md R62). -/
def groupIndex : Group → Nat
  | .A => 0
  | .B => 1

/-- The number of a port: 0, 1, 2 (30_encoding.md R62). -/
def portIndex : Port → Nat
  | .A => 0
  | .B => 1
  | .C => 2

/-- The operation word of a signal: the bus half is the plain concatenation of offset, direction and data
(30_encoding.md R50). -/
def signalWord : InputSignal → OpWord
  | .busRead addr => opWord 0b00 addr 0
  | .busWrite addr wdata => opWord 0b01 addr wdata
  | .stb g => opWord 0b10 0b00 (BitVec.ofNat 8 (groupIndex g))
  | .ack g => opWord 0b10 0b01 (BitVec.ofNat 8 (groupIndex g))
  | .reset => opWord 0b10 0b10 0
  | .pins p v => opWord 0b11 (BitVec.ofNat 2 (portIndex p)) v

/-- The output wires of the block: `rdata`, the port outputs, and the handshake outputs of each group, which are no
Port C pins (10_state.md R27). -/
structure OutputSignals where
  rdata : Option Byte
  paOut : Byte
  pbOut : Byte
  pcOut : Byte
  ibf : GroupBits
  obf : GroupBits
  intr : GroupBits
  deriving DecidableEq, Repr

/-- What the wires show in a state. -/
def outputSignals (s : State) : OutputSignals where
  rdata := s.answer.ret
  paOut := s.out.get .A
  pbOut := s.out.get .B
  pcOut := s.out.get .C
  ibf := s.ibf
  obf := s.obf
  intr := s.intr

/-! ### Pseudo-operations (30_encoding.md R66) -/

/-- The pseudo-operations; each expands to one operation. -/
inductive Pseudo where
  | wrcw (v : Byte)
  | rd (p : BitVec 2)
  | wr (p : BitVec 2) (v : Byte)
  | setin (p : Port) (v : Byte)
  | setbit (n : BitVec 3)
  | clrbit (n : BitVec 3)
  | config (ma : BitVec 2) (da dcu mb db dcl : Bool)
  deriving DecidableEq, Repr

/-- The bus read of a 2-bit offset (`RD p`). -/
def readAtOffset (p : BitVec 2) : Instr :=
  match p.getLsbD 1, p.getLsbD 0 with
  | false, false => .rda
  | false, true => .rdb
  | true, false => .rdc
  | true, true => .rdcw

/-- The bus write of a 2-bit offset (`WR p, v`). -/
def writeAtOffset (p : BitVec 2) (v : Byte) : Instr :=
  match p.getLsbD 1, p.getLsbD 0 with
  | false, false => .wra v
  | false, true => .wrb v
  | true, false => .wrc v
  | true, true => decodeControl v

/-- The input drive of a port (`SETIN p, v`). -/
def driveInstr (p : Port) (v : Byte) : Instr :=
  match p with
  | .A => .setina v
  | .B => .setinb v
  | .C => .setinc v

/-- The expansion of a pseudo-operation (30_encoding.md R66). -/
def expand : Pseudo → Instr
  | .wrcw v => decodeControl v
  | .rd p => readAtOffset p
  | .wr p v => writeAtOffset p v
  | .setin p v => driveInstr p v
  | .setbit n => .bsr (BitVec.ofNat 8 (2 * n.toNat + 1))
  | .clrbit n => .bsr (BitVec.ofNat 8 (2 * n.toNat))
  | .config ma da dcu mb db dcl =>
    .modeset (BitVec.ofNat 8
      (0x80 + 32 * ma.toNat + 16 * da.toNat + 8 * dcu.toNat + 4 * mb.toNat + 2 * db.toNat + dcl.toNat))

/-! ### Trace syntax (30_encoding.md R65) -/

/-- One hexadecimal digit. -/
def hexDigit (n : Nat) : String :=
  ["0", "1", "2", "3", "4", "5", "6", "7", "8", "9", "A", "B", "C", "D", "E", "F"].getD n "?"

/-- A byte with the `0x` prefix. -/
def showByte (v : Byte) : String := "0x" ++ hexDigit (v.toNat / 16) ++ hexDigit (v.toNat % 16)

/-- An operation as one line of a trace: mnemonic first, bytes in hexadecimal, group identifiers as numbers. -/
def showInstr : Instr → String
  | .rda => "RDA"
  | .rdb => "RDB"
  | .rdc => "RDC"
  | .rdcw => "RDCW"
  | .wra v => "WRA " ++ showByte v
  | .wrb v => "WRB " ++ showByte v
  | .wrc v => "WRC " ++ showByte v
  | .modeset v => "MODESET " ++ showByte v
  | .bsr v => "BSR " ++ showByte v
  | .stb g => "STB " ++ toString g.toNat
  | .ack g => "ACK " ++ toString g.toNat
  | .reset => "RESET"
  | .setina v => "SETINA " ++ showByte v
  | .setinb v => "SETINB " ++ showByte v
  | .setinc v => "SETINC " ++ showByte v

/-- `g,level` of an event, the level as the integer 0 or 1. -/
def showLevel (g : Group) (level : Bool) : String := toString (groupIndex g) ++ "," ++ toString level.toNat

/-- An event as it stands in a trace. -/
def showEvent : Event → String
  | .ibf g l => "IBF(" ++ showLevel g l ++ ")"
  | .obf g l d => "OBF(" ++ showLevel g l ++ "," ++ showByte d ++ ")"
  | .intr g l => "INTR(" ++ showLevel g l ++ ")"
  | .stbch g l => "STBCH(" ++ showLevel g l ++ ")"
  | .ackch g l => "ACKCH(" ++ showLevel g l ++ ")"

/-- The advisory outcome as it stands in a trace. -/
def showDiag : Diag → String
  | .ok => "Ok"
  | .warn => "Warn"
  | .illegal => "Illegal"
  | .unknown => "Unknown"
  | .standard => "Standard"
  | .bsr => "BSR"

/-- The parts of an answer in the trace's order: return byte, outcome, events. -/
def answerParts (a : Answer) : List String :=
  (match a.ret with | some v => [showByte v] | none => []) ++
  (match a.diag with | some d => [showDiag d] | none => []) ++
  (match a.events with | [] => [] | es => ["[" ++ String.intercalate ", " (es.map showEvent) ++ "]"])

/-- A trace line: the operation, then `->` and its answer if it has one. -/
def traceLine (i : Instr) (a : Answer) : String :=
  match answerParts a with
  | [] => showInstr i
  | parts => showInstr i ++ " -> " ++ String.intercalate " " parts

end Sys2Proof.Machine
end

