-- ==== Sys2Proof/Safety.lean ====
section
/-! DEFINITION. What the statements about the machine speak of: sequences of operations and their answers, the
invariants of the device, the triggers of the handshake, and what two states may be compared by. -/

namespace Sys2Proof.Machine

/-! ### Sequences of operations (10_state.md R23, 20_memory.md R41) -/

/-- The operations of a list performed in order; the fold of `exec`. -/
def execAll : List Instr → State → Host.Outcome State Fault Refusal
  | [], s => .next s
  | i :: is, s =>
    match exec i s with
    | .next t => execAll is t
    | .fault r => .fault r
    | .refused r => .refused r

/-- The answers of the operations of a list, in order. -/
def answersOf : List Instr → State → List Answer
  | [], _ => []
  | i :: is, s =>
    match exec i s with
    | .next t => t.answer :: answersOf is t
    | .fault _ => []
    | .refused _ => []

/-- Every word with the row's fixed bits decodes to the operation the row spells with the word's low byte. -/
def DecodesAs (pattern mask : OpWord) (f : Byte → Instr) : Prop :=
  ∀ w : OpWord, w &&& mask = pattern → decode w = .ok (f (w.extractLsb' 0 8))

/-- The bus read of a port. -/
def readInstr : Port → Instr
  | .A => .rda
  | .B => .rdb
  | .C => .rdc

/-- The bus write of a byte to a port. -/
def writeInstr (p : Port) (v : Byte) : Instr :=
  match p with
  | .A => .wra v
  | .B => .wrb v
  | .C => .wrc v

/-! ### Invariants -/

/-- The modes and directions are the decode of `cw` (10_state.md R20). -/
abbrev ModesDecoded (s : State) : Prop :=
  s.modeA = decodeModeA s.cw ∧ s.modeB = decodeModeB s.cw ∧
  s.aIn = s.cw.getLsbD 4 ∧ s.cuIn = s.cw.getLsbD 3 ∧ s.bIn = s.cw.getLsbD 1 ∧ s.clIn = s.cw.getLsbD 0

/-- The flag triples a group may hold in each mode (42_handshake.md R115, 10_state.md R21). -/
def flagsLegal (m : Mode) (ibf obf intr : Bool) : Bool :=
  match m with
  | .mode0 => !ibf && !obf && !intr
  | .mode2 => !ibf && !obf && !intr
  | .mode1Input => !obf && (intr == ibf)
  | .mode1Output => !ibf && !(obf && intr)

/-- Both groups hold a legal triple. -/
abbrev FlagsLegal (s : State) : Prop :=
  flagsLegal s.modeA s.ibf.a s.obf.a s.intr.a = true ∧
  flagsLegal s.modeB.asMode s.ibf.b s.obf.b s.intr.b = true

/-- The invariant of the device: `cw[7] = 1` (10_state.md R13), the modes are decoded from `cw` (R20), the flags are
legal (R21, 42_handshake.md R115), and the strobe lines are inactive between operations (R17). -/
abbrev Inv (s : State) : Prop :=
  s.cw.getLsbD 7 = true ∧ ModesDecoded s ∧ FlagsLegal s ∧ s.stbActive = ⟨false, false⟩

/-! ### Triggers of the handshake (42_handshake.md R102) -/

/-- The four triggers. -/
inductive Trigger where
  | strobe
  | cpuRead
  | cpuWrite
  | acknowledge
  deriving DecidableEq, Repr

/-- The trigger an operation is, and the group it addresses. -/
def triggerOf : Instr → Option (Trigger × Group)
  | .rda => some (.cpuRead, .A)
  | .rdb => some (.cpuRead, .B)
  | .wra _ => some (.cpuWrite, .A)
  | .wrb _ => some (.cpuWrite, .B)
  | .stb g => some (.strobe, groupOf g)
  | .ack g => some (.acknowledge, groupOf g)
  | .rdc => none
  | .rdcw => none
  | .wrc _ => none
  | .modeset _ => none
  | .bsr _ => none
  | .reset => none
  | .setina _ => none
  | .setinb _ => none
  | .setinc _ => none

/-- Which trigger acts in which mode (42_handshake.md R102). -/
def triggerActs (m : Mode) (ibf : Bool) : Trigger → Bool
  | .strobe => m == .mode1Input && !ibf
  | .cpuRead => m == .mode1Input
  | .cpuWrite => m == .mode1Output
  | .acknowledge => m == .mode1Output

/-- The operation performs the transition `k` of group `g` in the state. -/
def performs (k : Trigger) (g : Group) (i : Instr) (s : State) : Bool :=
  triggerOf i == some (k, g) && triggerActs (s.mode g) (s.ibf.get g) k

/-- The operations that clear the flags of both groups: `MODESET` and `RESET` (10_state.md R16). -/
def clearsFlags : Instr → Bool
  | .modeset _ => true
  | .reset => true
  | .rda => false
  | .rdb => false
  | .rdc => false
  | .rdcw => false
  | .wra _ => false
  | .wrb _ => false
  | .wrc _ => false
  | .bsr _ => false
  | .stb _ => false
  | .ack _ => false
  | .setina _ => false
  | .setinb _ => false
  | .setinc _ => false

/-! ### What two states are compared by -/

/-- Everything a group owns, with the mode and direction that judge it. -/
structure GroupView where
  mode : Mode
  isIn : Bool
  latch : Byte
  out : Byte
  inp : Byte
  ibf : Bool
  obf : Bool
  intr : Bool
  deriving DecidableEq, Repr

/-- The view of a group in a state. -/
def groupView (g : Group) (s : State) : GroupView where
  mode := s.mode g
  isIn := s.isIn g
  latch := s.latch.get (groupPort g)
  out := s.out.get (groupPort g)
  inp := s.inp.get (groupPort g)
  ibf := s.ibf.get g
  obf := s.obf.get g
  intr := s.intr.get g

/-- The other group. -/
def otherGroup : Group → Group
  | .A => .B
  | .B => .A

/-- The group an operation addresses: a bus access, a pulse or an input drive of that group's port. -/
def addressedGroup : Instr → Option Group
  | .rda => some .A
  | .rdb => some .B
  | .wra _ => some .A
  | .wrb _ => some .B
  | .stb g => some (groupOf g)
  | .ack g => some (groupOf g)
  | .setina _ => some .A
  | .setinb _ => some .B
  | .rdc => none
  | .rdcw => none
  | .wrc _ => none
  | .modeset _ => none
  | .bsr _ => none
  | .reset => none
  | .setinc _ => none

/-- The port whose pins an operation drives. -/
def drivenPort : Instr → Option Port
  | .setina _ => some .A
  | .setinb _ => some .B
  | .setinc _ => some .C
  | .rda => none
  | .rdb => none
  | .rdc => none
  | .rdcw => none
  | .wra _ => none
  | .wrb _ => none
  | .wrc _ => none
  | .modeset _ => none
  | .bsr _ => none
  | .stb _ => none
  | .ack _ => none
  | .reset => none

/-- The two states agree on every field that some rule reads to answer an operation: all but `latch[C]`, `cw`, `out`,
`obf[1]`, `intr` and `stbActive` (10_state.md R13, R16, R17, R26; 40_control_decoder.md R76). -/
def SameReadState (s t : State) : Prop :=
  s.latch.a = t.latch.a ∧ s.latch.b = t.latch.b ∧ s.inp = t.inp ∧
  s.modeA = t.modeA ∧ s.modeB = t.modeB ∧
  s.aIn = t.aIn ∧ s.bIn = t.bIn ∧ s.cuIn = t.cuIn ∧ s.clIn = t.clIn ∧
  s.ibf = t.ibf ∧ s.obf.a = t.obf.a

end Sys2Proof.Machine
end

