-- ==== Sys2Proof/Certificates/Slice0/Obligations.lean ====
section
/-! DEFINITION. The statements for the provers. A docstring names the rules of spec/ a statement formalises; where a
clause rests on a point the spec marks as its own decision or derivation, the docstring names it. In every statement the
field `pending` is the model's choice (log entry 1), the form of the field `answer` is the model's choice (log entries 3
and 4), and what `exec` does with a term that no word decodes to is the model's choice (log entry 16). -/

open Sys2Proof Sys2Proof.Machine

/-! ### Reset and invariants -/

/-- 10_state.md R25: after `RESET`, from any state, every field of the device has the table's value. -/
def Obligations.ResetGivesEveryField : Prop :=
  ∀ s : State, ∃ t, exec .reset s = .next t ∧
    t.latch = ⟨0x00, 0x00, 0x00⟩ ∧ t.out = ⟨0x00, 0x00, 0x00⟩ ∧ t.inp = ⟨0x00, 0x00, 0x00⟩ ∧
    t.cw = 0x9B ∧ t.modeA = .mode0 ∧ t.modeB = .mode0 ∧
    t.aIn = true ∧ t.bIn = true ∧ t.cuIn = true ∧ t.clIn = true ∧
    t.ibf = ⟨false, false⟩ ∧ t.obf = ⟨false, false⟩ ∧ t.intr = ⟨false, false⟩ ∧ t.stbActive = ⟨false, false⟩

/-- The machine starts in the state that `RESET` makes (10_state.md R24, decision D14), with nothing presented and
nothing answered (the model's choice, log entries 1 and 3). -/
def Obligations.MachineStartsInTheResetState : Prop :=
  ∀ s : State, exec .reset s = .next { Sys2Proof.core.reset with pending := s.pending } ∧
    Sys2Proof.core.reset.pending = [] ∧ Sys2Proof.core.reset.answer = ⟨none, [], none⟩

/-- The invariant holds at reset (10_state.md R13, R17, R20, R21; 42_handshake.md R115). -/
def Obligations.InvariantHoldsAtReset : Prop := Inv State.reset

/-- Every step keeps the invariant: `cw[7] = 1`, modes and directions decoded from `cw`, each group's flags among the
values of the table of 42_handshake.md R115 (a derivation of the spec), the strobe lines inactive (decision D5). The
flags clause rests on `MODESET` clearing the flags (decision D2, log entry 6). -/
def Obligations.StepKeepsInvariant : Prop :=
  ∀ s t : State, Inv s → step s = .next t → Inv t

/-- 10_state.md R20: at every moment the two modes and the four directions are the decode of the byte in `cw`. The
decode is written out from the bits of `cw` (30_encoding.md R53 to R57). -/
def Obligations.ModesAlwaysDecodeTheControlWord : Prop :=
  let decoded := fun s : State =>
    s.modeA = (match s.cw.getLsbD 6, s.cw.getLsbD 5, s.cw.getLsbD 4 with
      | false, false, _ => Mode.mode0
      | false, true, true => Mode.mode1Input
      | false, true, false => Mode.mode1Output
      | true, _, _ => Mode.mode2) ∧
    s.modeB = (match s.cw.getLsbD 2, s.cw.getLsbD 1 with
      | false, _ => ModeB.mode0
      | true, true => ModeB.mode1Input
      | true, false => ModeB.mode1Output) ∧
    s.aIn = s.cw.getLsbD 4 ∧ s.cuIn = s.cw.getLsbD 3 ∧ s.bIn = s.cw.getLsbD 1 ∧ s.clIn = s.cw.getLsbD 0
  decoded State.reset ∧ ∀ s t : State, decoded s → step s = .next t → decoded t

/-! ### Encoding -/

/-- Words of the spec's own decode table (95_test_vectors.md V1) decode to the operations it names. -/
def Obligations.DecodeReadsTheSpecWords : Prop :=
  decode 0x000 = .ok .rda ∧ decode 0x0FF = .ok .rda ∧ decode 0x1A5 = .ok .rdb ∧ decode 0x200 = .ok .rdc ∧
  decode 0x3FF = .ok .rdcw ∧ decode 0x442 = .ok (.wra 0x42) ∧ decode 0x6FF = .ok (.wrc 0xFF) ∧
  decode 0x77F = .ok (.bsr 0x7F) ∧ decode 0x780 = .ok (.modeset 0x80) ∧ decode 0x8FF = .ok (.stb 0xFF) ∧
  decode 0x902 = .ok (.ack 0x02) ∧ decode 0xA5A = .ok .reset ∧ decode 0xC5A = .ok (.setina 0x5A) ∧
  decode 0xEFF = .ok (.setinc 0xFF)

/-- Decoding the word of a well-formed operation gives the operation back, for every operand. -/
def Obligations.DecodeOfEncodeIsTheInstruction : Prop :=
  ∀ i : Instr, i.wf = true → decode (encode i) = .ok i

/-- What the decoder answers is well formed, and its word is the word decoded, but for the bits 7:0 of a read or a
`RESET`, which are ignored (30_encoding.md R64, decision D10). -/
def Obligations.DecodedInstructionReencodes : Prop :=
  ∀ (w : OpWord) (i : Instr), decode w = .ok i →
    i.wf = true ∧
    encode i = match i with
      | .rda | .rdb | .rdc | .rdcw | .reset => w &&& 0xF00
      | .wra _ | .wrb _ | .wrc _ | .modeset _ | .bsr _ | .stb _ | .ack _ | .setina _ | .setinb _ | .setinc _ => w

/-- "Every 12-bit value either matches exactly one row or is reserved" (30_encoding.md section 1, R51; the numbering is
decisions D10 and D11), and the decoder answers what the row matched spells. -/
def Obligations.EveryWordMatchesOneRowOrIsReserved : Prop :=
  ∀ w : OpWord,
    (opcodeTable.filter fun r => w &&& r.mask == r.pattern).map (fun r => r.instr (w.extractLsb' 0 8)) =
      match decode w with
      | .ok i => [i]
      | .error _ => []

/-- The two reserved ranges are refused by name, each under its own reason, and every word of the bus half is legal
(30_encoding.md R60, decision D11). -/
def Obligations.ReservedWordsAreRefused : Prop :=
  ∀ (w : OpWord) (s : State),
    (w.extractLsb' 8 4 = 0xB#4 → step (present w s) = .refused (.reservedWord (.noSuchEventKind w))) ∧
    (w.extractLsb' 8 4 = 0xF#4 → step (present w s) = .refused (.reservedWord (.noInputPinsAtOffset3 w))) ∧
    (w.getLsbD 11 = false → ∃ i, decode w = .ok i)

/-! ### Steps and runs -/

/-- A step performs the oldest presented operation: the word is taken from the stream, and the step is the meaning of
the operation it decodes to. From the spec is that the operations run one at a time in the order the host presents them
(20_memory.md R41, 10_state.md R23); that the presented words stand in the state and that a step takes the oldest of
them is the model's choice (log entry 1, DESIGN CHOICE, unsafe). -/
def Obligations.StepRunsThePresentedOperation : Prop :=
  ∀ (s : State) (w : OpWord) (rest : List OpWord) (i : Instr),
    s.pending = w :: rest → decode w = .ok i → step s = exec i { s with pending := rest }

/-- With nothing presented a step changes no field but the answer, which it empties (the model's choice, log entry 3;
the device "never acts on its own", 00_scope.md R3). -/
def Obligations.IdleStepOnlyEmptiesTheAnswer : Prop :=
  ∀ s : State, s.pending = [] → step s = .next { s with answer := ⟨none, [], none⟩ }

/-- Every operation completes in every state (60_exceptions.md R140; `step` is total, 00_scope.md R4). That none
touches the stream of presented words, `RESET` among them, is the model's choice and no rule of the spec (log entry 1,
DESIGN CHOICE); so is that the ill-formed terms complete too, which no word decodes to (log entry 16, DESIGN CHOICE). -/
def Obligations.EveryOperationCompletes : Prop :=
  ∀ (i : Instr) (s : State), ∃ t, exec i s = .next t ∧ t.pending = s.pending

/-- A run over a presented sequence of operations is the fold of their meanings in the host's order (10_state.md R23,
20_memory.md R41), whatever is presented after them. That the sequence stands in `pending` and that a `RESET` in
mid-list keeps the words after it is the model's choice (log entry 1, DESIGN CHOICE, unsafe). -/
def Obligations.RunIsTheFoldOfTheOperations : Prop :=
  ∀ (is : List Instr) (rest : List OpWord) (s : State), (∀ i ∈ is, i.wf = true) →
    Host.Core.run Sys2Proof.core is.length { s with pending := is.map encode ++ rest } =
      execAll is { s with pending := rest }

/-! ### The operations -/

/-- `RDA` as 43_port_access.md section 1 spells it out, with its encoding. The Mode 0 lines rest on decision D1
(log entry 5), the word on decisions D10 and D11. -/
def Obligations.RdaFollowsItsRule : Prop :=
  DecodesAs 0x000 0xF00 (fun _ => .rda) ∧
  ∀ s : State, exec .rda s = .next (match s.modeA with
    | .mode0 =>
      if s.aIn then { s with answer := ⟨some s.inp.a, [], some .ok⟩ }
      else { s with answer := ⟨some s.latch.a, [], some .warn⟩ }
    | .mode1Input =>
      { s with
        ibf := { s.ibf with a := false }
        intr := { s.intr with a := false }
        answer := ⟨some s.inp.a, [.ibf .A false, .intr .A false], some .ok⟩ }
    | .mode1Output => { s with answer := ⟨some s.latch.a, [], some .warn⟩ }
    | .mode2 =>
      if s.ibf.a then { s with answer := ⟨some s.inp.a, [], some .ok⟩ }
      else { s with answer := ⟨some 0xFF, [], some .illegal⟩ })

/-- `RDB` as 43_port_access.md section 1 spells it out, with its encoding. The Mode 0 lines rest on decision D1
(log entry 5), the word on decisions D10 and D11. -/
def Obligations.RdbFollowsItsRule : Prop :=
  DecodesAs 0x100 0xF00 (fun _ => .rdb) ∧
  ∀ s : State, exec .rdb s = .next (match s.modeB with
    | .mode0 =>
      if s.bIn then { s with answer := ⟨some s.inp.b, [], some .ok⟩ }
      else { s with answer := ⟨some s.latch.b, [], some .warn⟩ }
    | .mode1Input =>
      { s with
        ibf := { s.ibf with b := false }
        intr := { s.intr with b := false }
        answer := ⟨some s.inp.b, [.ibf .B false, .intr .B false], some .ok⟩ }
    | .mode1Output => { s with answer := ⟨some s.latch.b, [], some .warn⟩ })

/-- 43_port_access.md R123: `RDC` returns the whole of `in[C]` in every configuration and changes nothing. -/
def Obligations.RdcReturnsTheInput : Prop :=
  DecodesAs 0x200 0xF00 (fun _ => .rdc) ∧
  ∀ s : State, exec .rdc s = .next { s with answer := ⟨some s.inp.c, [], some .ok⟩ }

/-- 43_port_access.md R124: `RDCW` returns 0xFF in every state and changes nothing; no outcome is given. -/
def Obligations.RdcwReturnsTheSentinel : Prop :=
  DecodesAs 0x300 0xF00 (fun _ => .rdcw) ∧
  ∀ s : State, exec .rdcw s = .next { s with answer := ⟨some 0xFF, [], none⟩ }

/-- `WRA v` as 43_port_access.md section 2 spells it out, with its encoding. The Mode 0 lines rest on decision D1
(log entry 5), the word on decisions D10 and D11. -/
def Obligations.WraFollowsItsRule : Prop :=
  DecodesAs 0x400 0xF00 .wra ∧
  ∀ (v : Byte) (s : State), exec (.wra v) s = .next (
    let l := { s with latch := { s.latch with a := v } }
    let suppressed : State := { l with answer := ⟨none, [], some .illegal⟩ }
    let passed : State := { l with out := { s.out with a := v }, answer := ⟨none, [], some .ok⟩ }
    match s.modeA with
    | .mode0 => if s.aIn then suppressed else passed
    | .mode1Input => suppressed
    | .mode1Output =>
      { l with
        out := { s.out with a := v }
        obf := { s.obf with a := false }
        intr := { s.intr with a := true }
        answer := ⟨none, [.obf .A false v, .intr .A true], some .ok⟩ }
    | .mode2 => if s.obf.a then suppressed else passed)

/-- `WRB v` as 43_port_access.md section 2 spells it out, with its encoding. The Mode 0 lines rest on decision D1
(log entry 5), the word on decisions D10 and D11. -/
def Obligations.WrbFollowsItsRule : Prop :=
  DecodesAs 0x500 0xF00 .wrb ∧
  ∀ (v : Byte) (s : State), exec (.wrb v) s = .next (
    let l := { s with latch := { s.latch with b := v } }
    let suppressed : State := { l with answer := ⟨none, [], some .illegal⟩ }
    let passed : State := { l with out := { s.out with b := v }, answer := ⟨none, [], some .ok⟩ }
    match s.modeB with
    | .mode0 => if s.bIn then suppressed else passed
    | .mode1Input => suppressed
    | .mode1Output =>
      { l with
        out := { s.out with b := v }
        obf := { s.obf with b := false }
        intr := { s.intr with b := true }
        answer := ⟨none, [.obf .B false v, .intr .B true], some .ok⟩ })

/-- 43_port_access.md R128: `WRC v` writes the latch always and the whole of `out[C]` unless both nibbles are inputs. -/
def Obligations.WrcFollowsItsRule : Prop :=
  DecodesAs 0x600 0xF00 .wrc ∧
  ∀ (v : Byte) (s : State), exec (.wrc v) s = .next (
    if s.cuIn = true ∧ s.clIn = true then
      { s with latch := { s.latch with c := v }, answer := ⟨none, [], some .illegal⟩ }
    else
      { s with
        latch := { s.latch with c := v }
        out := { s.out with c := v }
        answer := ⟨none, [], some .ok⟩ })

/-- `MODESET v` as 40_control_decoder.md section 2 gives it, with its encoding: `cw`, modes and directions from the byte
alone, every flag cleared with no event (decision D2, log entry 6), nothing else changed. -/
def Obligations.ModesetFollowsItsRule : Prop :=
  DecodesAs 0x780 0xF80 .modeset ∧
  ∀ (v : Byte) (s : State), exec (.modeset v) s = .next
    { s with
      cw := v
      clIn := v.getLsbD 0
      bIn := v.getLsbD 1
      cuIn := v.getLsbD 3
      aIn := v.getLsbD 4
      modeB := if v.getLsbD 2 = false then .mode0 else if v.getLsbD 1 = true then .mode1Input else .mode1Output
      modeA :=
        if v.extractLsb' 5 2 = 0b00#2 then .mode0
        else if v.extractLsb' 5 2 = 0b01#2 then (if v.getLsbD 4 = true then .mode1Input else .mode1Output)
        else .mode2
      ibf := ⟨false, false⟩
      obf := ⟨false, false⟩
      intr := ⟨false, false⟩
      stbActive := ⟨false, false⟩
      answer := ⟨none, [], some .standard⟩ }

/-- 40_control_decoder.md R72: `BSR v` writes bit `v[3:1]` of `latch[C]` with `v[0]` and changes no other bit and no
other field, in every configuration. -/
def Obligations.BsrWritesOneLatchBit : Prop :=
  DecodesAs 0x700 0xF80 .bsr ∧
  ∀ (v : Byte) (s : State), ∃ c : Byte,
    exec (.bsr v) s = .next { s with latch := { s.latch with c := c }, answer := ⟨none, [], some .bsr⟩ } ∧
    ∀ k, k < 8 → c.getLsbD k = if k = (v.extractLsb' 1 3).toNat then v.getLsbD 0 else s.latch.c.getLsbD k

/-- 42_handshake.md R103: `STB g`, for both groups; accepted only in Mode 1 Input with the buffer not full, and with no
effect at all otherwise. -/
def Obligations.StbFollowsItsRule : Prop :=
  DecodesAs 0x800 0xF00 .stb ∧
  ∀ (g : Byte) (s : State), exec (.stb g) s = .next (
    if g.toNat % 2 = 0 then
      if s.modeA = .mode1Input ∧ s.ibf.a = false then
        { s with
          latch := { s.latch with a := s.inp.a }
          ibf := { s.ibf with a := true }
          intr := { s.intr with a := true }
          answer := ⟨none, [.ibf .A true, .intr .A true], none⟩ }
      else { s with answer := ⟨none, [], none⟩ }
    else
      if s.modeB = .mode1Input ∧ s.ibf.b = false then
        { s with
          latch := { s.latch with b := s.inp.b }
          ibf := { s.ibf with b := true }
          intr := { s.intr with b := true }
          answer := ⟨none, [.ibf .B true, .intr .B true], none⟩ }
      else { s with answer := ⟨none, [], none⟩ })

/-- `ACK g` as 42_handshake.md section 2 gives it, for both groups, with its encoding; the operation itself is
decision D3. -/
def Obligations.AckFollowsItsRule : Prop :=
  DecodesAs 0x900 0xF00 .ack ∧
  ∀ (g : Byte) (s : State), exec (.ack g) s = .next (
    if g.toNat % 2 = 0 then
      if s.modeA = .mode1Output then
        { s with
          obf := { s.obf with a := true }
          intr := { s.intr with a := false }
          answer := ⟨none, [.obf .A true 0xFF, .intr .A false], none⟩ }
      else { s with answer := ⟨none, [], none⟩ }
    else
      if s.modeB = .mode1Output then
        { s with
          obf := { s.obf with b := true }
          intr := { s.intr with b := false }
          answer := ⟨none, [.obf .B true 0xFF, .intr .B false], none⟩ }
      else { s with answer := ⟨none, [], none⟩ })

/-- `RESET` as 70_reset_and_hazards.md section 1 gives it, with its encoding: the state after it depends on nothing of
the device before it, and it emits no event (decision D14). The words the host has presented stay (log entry 1). -/
def Obligations.ResetFollowsItsRule : Prop :=
  DecodesAs 0xA00 0xF00 (fun _ => .reset) ∧
  ∀ s : State, exec .reset s = .next
    { latch := ⟨0x00, 0x00, 0x00⟩, out := ⟨0x00, 0x00, 0x00⟩, inp := ⟨0x00, 0x00, 0x00⟩, cw := 0x9B,
      modeA := .mode0, modeB := .mode0, aIn := true, bIn := true, cuIn := true, clIn := true,
      ibf := ⟨false, false⟩, obf := ⟨false, false⟩, intr := ⟨false, false⟩, stbActive := ⟨false, false⟩,
      answer := ⟨none, [], none⟩, pending := s.pending }

/-- The input drive of 43_port_access.md section 3 (decision D6), with its encodings: `in[p] <- v` and nothing else. -/
def Obligations.InputDriveFollowsItsRule : Prop :=
  DecodesAs 0xC00 0xF00 .setina ∧ DecodesAs 0xD00 0xF00 .setinb ∧ DecodesAs 0xE00 0xF00 .setinc ∧
  ∀ (v : Byte) (s : State),
    exec (.setina v) s = .next { s with inp := { s.inp with a := v }, answer := ⟨none, [], none⟩ } ∧
    exec (.setinb v) s = .next { s with inp := { s.inp with b := v }, answer := ⟨none, [], none⟩ } ∧
    exec (.setinc v) s = .next { s with inp := { s.inp with c := v }, answer := ⟨none, [], none⟩ }

/-! ### The access policy -/

/-- Port A or B in Mode 0: the outcome by direction, under the spec's decision D1 (log entry 5), and no side effect;
the two readings of conflict C1 differ exactly on the read of an output port and the write to an input port. -/
def Obligations.Mode0PolicyFollowsTheDirection : Prop :=
  (∀ (g : Group) (s : State), s.mode g = .mode0 →
    policy (groupPort g) .read s = ((if s.isIn g = true then .ok else .warn), s) ∧
    policy (groupPort g) .write s = ((if s.isIn g = true then .illegal else .ok), s)) ∧
  ∀ (isIn : Bool) (op : Access),
    mode0Outcome false isIn op = .ok ∧
    (mode0Outcome true isIn op = mode0Outcome false isIn op ↔ (isIn = true ↔ op = .read))

/-- 41_access_policy.md R83: in Mode 1 Input a write is `Illegal` with no effect; a read is `Ok`, always performs the
CPU-read transition, and returns the live input. -/
def Obligations.Mode1InputPolicy : Prop :=
  ∀ (g : Group) (s : State), s.mode g = .mode1Input →
    policy (groupPort g) .write s = (.illegal, s) ∧
    policy (groupPort g) .read s = (.ok, cpuRead g s) ∧
    ∃ t, exec (readInstr (groupPort g)) s = .next t ∧
      t.answer.ret = some (s.inp.get (groupPort g)) ∧
      t.answer.events = [.ibf g false, .intr g false] ∧ t.ibf.get g = false ∧ t.intr.get g = false

/-- 41_access_policy.md R84: in Mode 1 Output a read is `Warn` with no effect and returns the latch; a write is `Ok` and
always performs the CPU-write transition, and the byte placed on the port and carried by the event is the new one. -/
def Obligations.Mode1OutputPolicy : Prop :=
  ∀ (g : Group) (s : State), s.mode g = .mode1Output →
    policy (groupPort g) .read s = (.warn, s) ∧
    policy (groupPort g) .write s = (.ok, cpuWrite g s) ∧
    (∃ t, exec (readInstr (groupPort g)) s = .next t ∧ t.answer.ret = some (s.latch.get (groupPort g))) ∧
    ∀ v : Byte, ∃ t, exec (writeInstr (groupPort g) v) s = .next t ∧
      t.latch.get (groupPort g) = v ∧ t.out.get (groupPort g) = v ∧
      t.answer.events = [.obf g false v, .intr g true] ∧ t.obf.get g = false ∧ t.intr.get g = true

/-- Port A in Mode 2 for every value of the flags, those no run reaches among them: the gate as 41_access_policy.md
section 2 states it, with no transition (decision D19, log entry 9). -/
def Obligations.Mode2PolicyIsTheGate : Prop :=
  ∀ s : State, s.modeA = .mode2 →
    policy .A .read s = ((if s.ibf.a = false then .illegal else .ok), s) ∧
    policy .A .write s = ((if s.obf.a = true then .illegal else .ok), s)

/-- Port C is judged by its two nibble directions alone, whatever the modes (41_access_policy.md section 3, decision
D24): a write is `Illegal` only when both are inputs, a read is always `Ok`; no side effect. -/
def Obligations.PortCPolicyIgnoresTheModes : Prop :=
  ∀ s : State,
    policy .C .read s = (.ok, s) ∧
    policy .C .write s = ((if s.cuIn = true ∧ s.clIn = true then .illegal else .ok), s)

/-- An index past the ports is `Unknown` at the policy, with no effect (41_access_policy.md section 4); a facade index
of 4 or more reads 0xFF and writes nothing at all (20_memory.md section 1, decision D10). -/
def Obligations.OutOfRangeIndexDegrades : Prop :=
  ∀ (n : Nat) (s : State),
    (∀ op, policyAt (n + 3) op s = (.unknown, s)) ∧
    memRead (n + 4) s = { s with answer := ⟨some 0xFF, [], some .unknown⟩ } ∧
    ∀ v, memWrite (n + 4) v s = { s with answer := ⟨none, [], some .unknown⟩ }

/-- 43_port_access.md R120: a port read asks the access policy, performs its side effect, and returns the byte its
outcome picks; it writes no latch, no output register and no configuration field. -/
def Obligations.ReadAsksThePolicy : Prop :=
  ∀ (p : Port) (s : State),
    let r := policy p .read ({ s with answer := ⟨none, [], none⟩ } : State)
    exec (readInstr p) s = .next
      { r.2 with
        answer :=
          ⟨some (match r.1 with
              | .ok => s.inp.get p
              | .warn => s.latch.get p
              | .illegal => 0xFF
              | .unknown => 0xFF),
            r.2.answer.events, some (outcomeDiag r.1)⟩ } ∧
    r.2.latch = s.latch ∧ r.2.out = s.out ∧ r.2.inp = s.inp ∧ r.2.cw = s.cw ∧
    r.2.modeA = s.modeA ∧ r.2.modeB = s.modeB ∧
    r.2.aIn = s.aIn ∧ r.2.bIn = s.bIn ∧ r.2.cuIn = s.cuIn ∧ r.2.clIn = s.clIn

/-- No write has the outcome `Warn` and no port access the outcome `Unknown` (41_access_policy.md sections 4 and 5,
derivations of the spec). -/
def Obligations.NoWriteWarnsAndNoPortIsUnknown : Prop :=
  ∀ (p : Port) (s : State),
    (policy p .write s).1 ≠ .warn ∧ (policy p .write s).1 ≠ .unknown ∧ (policy p .read s).1 ≠ .unknown

/-- 43_port_access.md R125: a port write stores the byte in the latch unconditionally, then asks the policy, which sees
the new latch, then transfers the byte when the outcome is `Ok` or `Warn`; the other ports are untouched. -/
def Obligations.WriteStoresTheLatchFirst : Prop :=
  ∀ (p : Port) (v : Byte) (s : State), ∃ t, exec (writeInstr p v) s = .next t ∧
    let r := policy p .write ({ s with latch := s.latch.set p v, answer := ⟨none, [], none⟩ } : State)
    t.latch.get p = v ∧
    t.out.get p = (if r.1 = .ok ∨ r.1 = .warn then v else s.out.get p) ∧
    (∀ q, q ≠ p → t.latch.get q = s.latch.get q ∧ t.out.get q = s.out.get q) ∧
    t.answer = ⟨none, r.2.answer.events, some (outcomeDiag r.1)⟩ ∧
    t.ibf = r.2.ibf ∧ t.obf = r.2.obf ∧ t.intr = r.2.intr

/-- The register map (20_memory.md R30): each offset's read and write is the operation the map names. -/
def Obligations.RegisterMapNamesTheOperations : Prop :=
  ∀ s : State,
    exec .rda s = .next (memRead 0 s) ∧ exec .rdb s = .next (memRead 1 s) ∧
    exec .rdc s = .next (memRead 2 s) ∧ exec .rdcw s = .next (memRead 3 s) ∧
    ∀ v : Byte,
      exec (.wra v) s = .next (memWrite 0 v s) ∧ exec (.wrb v) s = .next (memWrite 1 v s) ∧
      exec (.wrc v) s = .next (memWrite 2 v s) ∧
      (v.getLsbD 7 = true → exec (.modeset v) s = .next (memWrite 3 v s)) ∧
      (v.getLsbD 7 = false → exec (.bsr v) s = .next (memWrite 3 v s))

/-! ### The control register -/

/-- 10_state.md R22: a control write changes the whole configuration and no latch bit, or one bit of `latch[C]`, bit
`v[3:1]`, which takes the value `v[0]`, and nothing of the configuration; bit 7 of the byte alone decides which. Neither
touches an output register or an input, and the second touches no flag. -/
def Obligations.ControlWriteChangesOneOfTwoThings : Prop :=
  ∀ (v : Byte) (s : State), ∃ t, exec (decodeControl v) s = .next t ∧
    if v.getLsbD 7 = true then
      t.latch = s.latch ∧ t.out = s.out ∧ t.inp = s.inp ∧ t.cw = v ∧ t.modeA = decodeModeA v ∧ t.modeB = decodeModeB v ∧
      t.aIn = v.getLsbD 4 ∧ t.cuIn = v.getLsbD 3 ∧ t.bIn = v.getLsbD 1 ∧ t.clIn = v.getLsbD 0
    else
      t.cw = s.cw ∧ t.modeA = s.modeA ∧ t.modeB = s.modeB ∧
      t.aIn = s.aIn ∧ t.cuIn = s.cuIn ∧ t.bIn = s.bIn ∧ t.clIn = s.clIn ∧
      t.out = s.out ∧ t.inp = s.inp ∧ t.ibf = s.ibf ∧ t.obf = s.obf ∧ t.intr = s.intr ∧ t.stbActive = s.stbActive ∧
      t.latch.a = s.latch.a ∧ t.latch.b = s.latch.b ∧
      ∀ k < 8, t.latch.c.getLsbD k = if k = (v.extractLsb' 1 3).toNat then v.getLsbD 0 else s.latch.c.getLsbD k

/-- `MODESET` twice is `MODESET` once, and two states that agree on latches, outputs and inputs agree entirely after it
(40_control_decoder.md section 2, S1; the flags by decision D2, log entry 6; the answer and the stream are the
model's). -/
def Obligations.ModesetForgetsAndIsIdempotent : Prop :=
  (∀ (v : Byte) (s t : State), exec (.modeset v) s = .next t → exec (.modeset v) t = .next t) ∧
  ∀ (v : Byte) (s₁ s₂ : State),
    s₁.latch = s₂.latch → s₁.out = s₂.out → s₁.inp = s₂.inp → s₁.pending = s₂.pending →
    exec (.modeset v) s₁ = exec (.modeset v) s₂

/-- 40_control_decoder.md R75: `MODESET` keeps every latch, output register and input value. -/
def Obligations.ModesetKeepsThePortData : Prop :=
  ∀ (v : Byte) (s : State), ∃ t, exec (.modeset v) s = .next t ∧
    t.latch = s.latch ∧ t.out = s.out ∧ t.inp = s.inp

/-- Bits 6:4 of a BSR byte do not matter (30_encoding.md section 2, decision D13). -/
def Obligations.BsrIgnoresBitsSixToFour : Prop :=
  ∀ (v w : Byte) (s : State), v.extractLsb' 0 4 = w.extractLsb' 0 4 → exec (.bsr v) s = exec (.bsr w) s

/-! ### The handshake -/

/-- 42_handshake.md R104: the CPU-read transition of each group, with its frame; afterwards a strobe is accepted again
in Mode 1 Input. -/
def Obligations.CpuReadTransition : Prop :=
  ∀ (g : Group) (s : State),
    cpuRead g s =
      { s with
        ibf := s.ibf.set g false
        intr := s.intr.set g false
        answer := { s.answer with events := s.answer.events ++ [.ibf g false, .intr g false] } } ∧
    (s.mode g = .mode1Input → (cpuRead g s).strobeAccepted g = true)

/-- 42_handshake.md R105: the CPU-write transition of each group, with its frame. -/
def Obligations.CpuWriteTransition : Prop :=
  ∀ (g : Group) (s : State),
    cpuWrite g s =
      { s with
        obf := s.obf.set g false
        intr := s.intr.set g true
        out := s.out.set (groupPort g) (s.latch.get (groupPort g))
        answer := { s.answer with
          events := s.answer.events ++ [.obf g false (s.latch.get (groupPort g)), .intr g true] } }

/-- 70_reset_and_hazards.md R173: a strobe of a group whose input buffer is full changes nothing and emits nothing. -/
def Obligations.StrobeWhileFullIsDropped : Prop :=
  ∀ (g : Byte) (s : State), s.ibf.get (groupOf g) = true →
    exec (.stb g) s = .next { s with answer := ⟨none, [], none⟩ }

/-- 10_state.md R16: each flip-flop of each group is set and cleared by the causes of the table and by no other; the
same rows give `intr` in 60_exceptions.md R144. -/
def Obligations.FlagsHaveOnlyTheirCauses : Prop :=
  ∀ (i : Instr) (s : State) (g : Group), ∃ t, exec i s = .next t ∧
    t.ibf.get g = (!clearsFlags i && (performs .strobe g i s || (s.ibf.get g && !performs .cpuRead g i s))) ∧
    t.obf.get g = (!clearsFlags i && (performs .acknowledge g i s || (s.obf.get g && !performs .cpuWrite g i s))) ∧
    t.intr.get g = (!clearsFlags i && (performs .strobe g i s || performs .cpuWrite g i s ||
      (s.intr.get g && !(performs .cpuRead g i s || performs .acknowledge g i s))))

/-- In Mode 0 and in Mode 2 no operation but `MODESET` and `RESET` changes a group's flags, and none emits an event for
the group (42_handshake.md section 2, decision D19). -/
def Obligations.HandshakeInertOutsideMode1 : Prop :=
  ∀ (i : Instr) (s t : State) (g : Group),
    s.mode g = .mode0 ∨ s.mode g = .mode2 → clearsFlags i = false → exec i s = .next t →
    t.ibf.get g = s.ibf.get g ∧ t.obf.get g = s.obf.get g ∧ t.intr.get g = s.intr.get g ∧
    ∀ l d, Event.ibf g l ∉ t.answer.events ∧ Event.obf g l d ∉ t.answer.events ∧ Event.intr g l ∉ t.answer.events

/-- An operation emits no event, or exactly two of one group: the buffer-full event first and the interrupt event
second, each with the new level of its flip-flop, and with the output byte or the sentinel as data (42_handshake.md
section 3; decisions D4, D8, D20). -/
def Obligations.EventsComeInPairsBufferFirst : Prop :=
  ∀ (i : Instr) (s : State), ∃ t, exec i s = .next t ∧
    (t.answer.events = [] ∨
      ∃ g : Group,
        t.answer.events = [.ibf g (t.ibf.get g), .intr g (t.intr.get g)] ∨
        t.answer.events =
          [.obf g (t.obf.get g) (if t.obf.get g = true then 0xFF else t.out.get (groupPort g)),
            .intr g (t.intr.get g)])

/-- An operation addressed to one group leaves the other group, Port C and the configuration as they are, and what it
answers and does to its own group depends on that group alone (42_handshake.md section 1, with the accesses and drives
of the group's port). -/
def Obligations.GroupsAreIndependent : Prop :=
  ∀ (i : Instr) (g : Group), addressedGroup i = some g →
    (∀ s t : State, exec i s = .next t →
      groupView (otherGroup g) t = groupView (otherGroup g) s ∧
      t.latch.c = s.latch.c ∧ t.out.c = s.out.c ∧ t.inp.c = s.inp.c ∧ t.cw = s.cw ∧
      t.modeA = s.modeA ∧ t.modeB = s.modeB ∧
      t.aIn = s.aIn ∧ t.bIn = s.bIn ∧ t.cuIn = s.cuIn ∧ t.clIn = s.clIn ∧ t.stbActive = s.stbActive) ∧
    ∀ s₁ s₂ : State, groupView g s₁ = groupView g s₂ →
      ∃ t₁ t₂, exec i s₁ = .next t₁ ∧ exec i s₂ = .next t₂ ∧
        groupView g t₁ = groupView g t₂ ∧ t₁.answer = t₂.answer

/-! ### Who writes what -/

/-- An output register changes only at `RESET`, or by a bus write of its own port that the policy permits, which puts
the written byte there (10_state.md section 3; 95_test_vectors.md V9). -/
def Obligations.OnlyPermittedWritesChangeAnOutput : Prop :=
  ∀ (i : Instr) (s t : State) (p : Port), exec i s = .next t → t.out.get p ≠ s.out.get p →
    i = .reset ∨ ∃ v, i = writeInstr p v ∧ t.out.get p = v ∧ t.answer.diag = some .ok

/-- A latch changes only at `RESET`, by a bus write of its port, by an accepted strobe of its group, or, for Port C, by
`BSR` (10_state.md section 2). -/
def Obligations.LatchesHaveOnlyTheirWriters : Prop :=
  ∀ (i : Instr) (s t : State) (p : Port), exec i s = .next t → t.latch.get p ≠ s.latch.get p →
    i = .reset ∨ (∃ v, i = writeInstr p v ∧ t.latch.get p = v) ∨
    (∃ g, p = groupPort g ∧ performs .strobe g i s = true ∧ t.latch.get p = s.inp.get p) ∨
    (p = .C ∧ ∃ v, i = .bsr v)

/-- An input value changes only at `RESET` or by the peer's drive of its port (10_state.md section 3, decision D6). -/
def Obligations.InputsHaveOnlyTheirDrivers : Prop :=
  ∀ (i : Instr) (s t : State) (p : Port), exec i s = .next t → t.inp.get p ≠ s.inp.get p →
    i = .reset ∨ i = driveInstr p (t.inp.get p)

/-- The control word, the modes and the directions change only by `MODESET` and `RESET` (10_state.md section 4), and
these alone write `stbActive` too: no other operation changes it (10_state.md R17 and 42_handshake.md R112, by decision
D5 of the spec; log entry 8, DEDUCED). -/
def Obligations.ConfigurationHasOnlyItsWriters : Prop :=
  ∀ (i : Instr) (s t : State), exec i s = .next t → clearsFlags i = false →
    t.cw = s.cw ∧ t.modeA = s.modeA ∧ t.modeB = s.modeB ∧
    t.aIn = s.aIn ∧ t.bIn = s.bIn ∧ t.cuIn = s.cuIn ∧ t.clIn = s.clIn ∧ t.stbActive = s.stbActive

/-- A read changes no state but, in Mode 1 Input of its port's group, `ibf` and `intr` of that group (20_memory.md
section 3, a derivation of the spec). -/
def Obligations.ReadsChangeOnlyHandshakeFlags : Prop :=
  ∀ (p : Port) (s : State), ∃ t, exec (readInstr p) s = .next t ∧
    t = { s with ibf := t.ibf, intr := t.intr, answer := t.answer } ∧
    (∀ g, ¬ (p = groupPort g ∧ s.mode g = .mode1Input) →
      t.ibf.get g = s.ibf.get g ∧ t.intr.get g = s.intr.get g)

/-! ### Longer behaviours -/

/-- Mode 0 output round trip of Port A (95_test_vectors.md S3, read as conflict C1 reads it; decision D1, log entry 5):
`MODESET v` with `MA = 00` and `DA = 0`, then `WRA x`, then `RDA`, from any state, returns `x`. -/
def Obligations.Mode0OutputRoundTrip : Prop :=
  ∀ (v x : Byte) (s : State), v.extractLsb' 5 2 = 0b00#2 → v.getLsbD 4 = false →
    ∃ t, execAll [.modeset v, .wra x, .rda] s = .next t ∧ t.answer.ret = some x ∧ t.out.a = x

/-- Under the premise of 70_reset_and_hazards.md section 3 (the peer holds its data; no `SETIN` of the port, and no
`RESET`), whatever else is done between an accepted strobe and a later read in Mode 1 Input, the read returns the byte
the strobe latched. -/
def Obligations.HeldStrobedByteIsReadBack : Prop :=
  ∀ (g : Byte) (is : List Instr) (s s₁ s₂ : State),
    s.mode (groupOf g) = .mode1Input → s.ibf.get (groupOf g) = false →
    (∀ i ∈ is, i ≠ .reset ∧ drivenPort i ≠ some (groupPort (groupOf g))) →
    exec (.stb g) s = .next s₁ → execAll is s₁ = .next s₂ → s₂.mode (groupOf g) = .mode1Input →
    ∃ t, exec (readInstr (groupPort (groupOf g))) s₂ = .next t ∧
      t.answer.ret = some (s₁.latch.get (groupPort (groupOf g)))

/-- The life of a strobed output (42_handshake.md section 5): in Mode 1 Output a write and then an acknowledge of the
group, whatever the flags before, leave the byte in latch and output with `obf` true and `intr` false. -/
def Obligations.StrobedOutputCycle : Prop :=
  ∀ (g v : Byte) (s : State), s.mode (groupOf g) = .mode1Output →
    ∃ t, execAll [writeInstr (groupPort (groupOf g)) v, .ack g] s = .next t ∧
      t.latch.get (groupPort (groupOf g)) = v ∧ t.out.get (groupPort (groupOf g)) = v ∧
      t.obf.get (groupOf g) = true ∧ t.intr.get (groupOf g) = false ∧ t.ibf = s.ibf ∧
      answersOf [writeInstr (groupPort (groupOf g)) v, .ack g] s =
        [⟨none, [.obf (groupOf g) false v, .intr (groupOf g) true], some .ok⟩,
          ⟨none, [.obf (groupOf g) true 0xFF, .intr (groupOf g) false], none⟩]

/-- In every state that meets the invariant, with Port A in Mode 2, every read of Port A returns 0xFF and every write
passes (70_reset_and_hazards.md section 3, a derivation of the spec; decisions D2, D19). -/
def Obligations.Mode2IsADeadEndForInput : Prop :=
  ∀ (v : Byte) (s : State), Inv s → s.modeA = .mode2 →
    exec .rda s = .next { s with answer := ⟨some 0xFF, [], some .illegal⟩ } ∧
    exec (.wra v) s = .next
      { s with
        latch := { s.latch with a := v }
        out := { s.out with a := v }
        answer := ⟨none, [], some .ok⟩ }

/-- No answer of any sequence of operations depends on `latch[C]`, `cw`, `out`, `obf[1]`, `intr` or `stbActive`:
two states that agree on everything else give the same answers for ever (10_state.md sections 4, 5 and 7;
40_control_decoder.md section 3). In particular no answer depends on the bit a `BSR` writes. The statement compares
answers, the return byte, events and outcome of each operation (log entries 3 and 4), and not the output registers. -/
def Obligations.UnreadStateNeverReachesAnAnswer : Prop :=
  ∀ (is : List Instr) (s t : State), SameReadState s t → answersOf is s = answersOf is t

/-- The expansion table of 30_encoding.md R66, row by row (decision D18), with the bits of every control byte it spells,
and every expansion is a well-formed operation: the seven pseudo-operations spell operations of the device and no other
term. -/
def Obligations.PseudoOperationsSpellTheirFields : Prop :=
  (∀ p : Pseudo, (expand p).wf = true) ∧
  (∀ v : Byte, expand (.wrcw v) = if v.getLsbD 7 = true then .modeset v else .bsr v) ∧
  (expand (.rd 0) = .rda ∧ expand (.rd 1) = .rdb ∧ expand (.rd 2) = .rdc ∧ expand (.rd 3) = .rdcw) ∧
  (∀ v : Byte, expand (.wr 0 v) = .wra v ∧ expand (.wr 1 v) = .wrb v ∧ expand (.wr 2 v) = .wrc v ∧
    expand (.wr 3 v) = expand (.wrcw v)) ∧
  (∀ v : Byte, expand (.setin .A v) = .setina v ∧ expand (.setin .B v) = .setinb v ∧ expand (.setin .C v) = .setinc v) ∧
  (∀ n : BitVec 3, expand (.setbit n) = .bsr (0b0000#4 ++ n ++ 1#1) ∧ expand (.clrbit n) = .bsr (0b0000#4 ++ n ++ 0#1)) ∧
  ∀ (ma : BitVec 2) (da dcu mb db dcl : Bool), expand (.config ma da dcu mb db dcl) =
    .modeset (1#1 ++ ma ++ BitVec.ofBool da ++ BitVec.ofBool dcu ++ BitVec.ofBool mb ++ BitVec.ofBool db ++
      BitVec.ofBool dcl)
end

