-- ==== Sys2Proof/Laws/Decode.lean ====
section
/-! SUPPORT. The fields of the operation word. -/

namespace Sys2Proof

@[simp] theorem opData_opWord (c e : BitVec 2) (d : Byte) : opData (opWord c e d) = d := by
  apply BitVec.eq_of_getLsbD_eq
  intro i hi
  simp only [opData, opWord, BitVec.getLsbD_extractLsb', BitVec.getLsbD_append]
  simp [hi]

@[simp] theorem opWord_bit11 (c e : BitVec 2) (d : Byte) : (opWord c e d).getLsbD 11 = c.getLsbD 1 := by
  simp only [opWord, BitVec.getLsbD_append, Nat.reduceLT, Nat.reduceSub, if_false]

@[simp] theorem opWord_bit10 (c e : BitVec 2) (d : Byte) : (opWord c e d).getLsbD 10 = c.getLsbD 0 := by
  simp only [opWord, BitVec.getLsbD_append, Nat.reduceLT, Nat.reduceSub, if_false]

@[simp] theorem opWord_bit9 (c e : BitVec 2) (d : Byte) : (opWord c e d).getLsbD 9 = e.getLsbD 1 := by
  simp only [opWord, BitVec.getLsbD_append, Nat.reduceLT, Nat.reduceSub, if_false, if_true]

@[simp] theorem opWord_bit8 (c e : BitVec 2) (d : Byte) : (opWord c e d).getLsbD 8 = e.getLsbD 0 := by
  simp only [opWord, BitVec.getLsbD_append, Nat.reduceLT, Nat.reduceSub, if_false, if_true]

theorem decodeControl_of_standard {v : Byte} (h : v.getLsbD 7 = true) : decodeControl v = .modeset v := by
  simp only [decodeControl, h, if_true]

theorem decodeControl_of_bsr {v : Byte} (h : v.getLsbD 7 = false) : decodeControl v = .bsr v := by
  simp only [decodeControl, h, Bool.false_eq_true, if_false]

/-- The mask of the thirteen rows that fix bits 11:8. -/
theorem opWord_and_F00 (c e : BitVec 2) (d : Byte) : opWord c e d &&& 0xF00 = opWord c e 0 := by
  apply BitVec.eq_of_getLsbD_eq
  intro i hi
  simp only [opWord, BitVec.getLsbD_and, BitVec.getLsbD_append]
  interval_cases i <;> simp

/-- The mask of `MODESET` and `BSR`, which fix bit 7 too. -/
theorem opWord_and_F80 (c e : BitVec 2) (d : Byte) :
    opWord c e d &&& 0xF80 = opWord c e (if d.getLsbD 7 then 0x80 else 0) := by
  apply BitVec.eq_of_getLsbD_eq
  intro i hi
  simp only [opWord, BitVec.getLsbD_and, BitVec.getLsbD_append]
  cases h : d.getLsbD 7 <;> interval_cases i <;> simp_all

end Sys2Proof
end

