-- ==== Sys2Proof/Laws/Operands.lean ====
section
/-! SUPPORT. The laws of the port arrays, the flip-flop pairs, the control-byte fields and the bit replacement. -/

namespace Sys2Proof.Machine

/-! ### Port arrays and flip-flop pairs -/

@[simp] theorem PortBytes.get_set_same (x : PortBytes) (p : Port) (v : Byte) : (x.set p v).get p = v := by
  cases p <;> rfl

theorem PortBytes.get_set_ne (x : PortBytes) {p q : Port} (v : Byte) (h : q ≠ p) : (x.set p v).get q = x.get q := by
  cases p <;> cases q <;> first | rfl | exact absurd rfl h

@[simp] theorem PortBytes.set_set (x : PortBytes) (p : Port) (v w : Byte) : (x.set p v).set p w = x.set p w := by
  cases p <;> rfl

theorem PortBytes.eq_of_get {x y : PortBytes} (h : ∀ p, x.get p = y.get p) : x = y := by
  cases x; cases y
  have ha := h .A; have hb := h .B; have hc := h .C
  simp only [PortBytes.get] at ha hb hc
  subst ha hb hc; rfl

@[simp] theorem GroupBits.get_set_same (x : GroupBits) (g : Group) (v : Bool) : (x.set g v).get g = v := by
  cases g <;> rfl

theorem GroupBits.get_set_ne (x : GroupBits) {g k : Group} (v : Bool) (h : k ≠ g) : (x.set g v).get k = x.get k := by
  cases g <;> cases k <;> first | rfl | exact absurd rfl h

theorem GroupBits.get_set (x : GroupBits) (g k : Group) (v : Bool) :
    (x.set g v).get k = if k = g then v else x.get k := by
  cases g <;> cases k <;> rfl

theorem PortBytes.get_set (x : PortBytes) (p q : Port) (v : Byte) :
    (x.set p v).get q = if q = p then v else x.get q := by
  cases p <;> cases q <;> rfl

/-! ### Ports, groups and indices -/

@[simp] theorem portAt_zero : portAt 0 = some .A := rfl
@[simp] theorem portAt_one : portAt 1 = some .B := rfl
@[simp] theorem portAt_two : portAt 2 = some .C := rfl

theorem portAt_eq_none {i : Nat} (h : 3 ≤ i) : portAt i = none := by
  match i, h with
  | _ + 3, _ => rfl

theorem groupPort_ne_c (g : Group) : groupPort g ≠ .C := by
  cases g <;> decide

theorem groupPort_injective {g k : Group} (h : groupPort g = groupPort k) : g = k := by
  cases g <;> cases k <;> first | rfl | exact absurd h (by decide)

/-- The group of a raw identifier is the identifier modulo 2. -/
theorem groupOf_eq_mod (g : Byte) : groupOf g = if g.toNat % 2 = 0 then .A else .B := by
  have h : g.getLsbD 0 = decide (g.toNat % 2 = 1) := by
    rw [BitVec.getLsbD, Nat.testBit_zero]
  unfold groupOf
  rw [h]
  rcases Nat.mod_two_eq_zero_or_one g.toNat with h0 | h1
  · simp only [h0, Nat.zero_ne_one, decide_false, Bool.false_eq_true, if_false, if_true]
  · simp only [h1, decide_true, if_true, Nat.one_ne_zero, if_false]

/-! ### The bit replacement -/

/-- The mask of bit `n`. -/
theorem getLsbD_one_shiftLeft (n k : Nat) (hk : k < 8) : ((1 : Byte) <<< n).getLsbD k = decide (k = n) := by
  have h1 : ∀ m, (1 : Byte).getLsbD m = decide (m = 0) := fun m => by
    rw [show (1 : Byte) = 1#8 from rfl, BitVec.getLsbD_one]
    simp
  rw [BitVec.getLsbD_shiftLeft, h1]
  rcases Nat.lt_trichotomy k n with h | h | h
  · simp [hk, h, Nat.ne_of_lt h]
  · subst h; simp [hk]
  · have h0 : k - n ≠ 0 := by omega
    simp [h0, Nat.ne_of_gt h]

/-- Bit `k` of `x with bit n <- b`. -/
theorem getLsbD_withBit (x : Byte) (n k : Nat) (b : Bool) (hk : k < 8) :
    (withBit x n b).getLsbD k = if k = n then b else x.getLsbD k := by
  have hone := getLsbD_one_shiftLeft n k hk
  cases b
  · simp only [withBit, Bool.false_eq_true, if_false, BitVec.getLsbD_and, BitVec.getLsbD_not, hone, hk, decide_true,
      Bool.true_and]
    by_cases h : k = n <;> simp [h]
  · simp only [withBit, if_true, BitVec.getLsbD_or, hone]
    by_cases h : k = n <;> simp [h]

theorem bsrBitNumber_lt (v : Byte) : bsrBitNumber v < 8 := (v.extractLsb' 1 3).isLt

/-! ### What an outcome does -/

@[simp] theorem returnByte_ok (l k : Byte) : returnByte .ok l k = l := rfl
@[simp] theorem returnByte_warn (l k : Byte) : returnByte .warn l k = k := rfl
@[simp] theorem returnByte_illegal (l k : Byte) : returnByte .illegal l k = 0xFF := rfl
@[simp] theorem returnByte_unknown (l k : Byte) : returnByte .unknown l k = 0xFF := rfl

end Sys2Proof.Machine
end

