-- ==== Sys2Proof/Laws/State.lean ====
section
/-! SUPPORT. One lemma per field per update of the state, true by `rfl`. -/

namespace Sys2Proof.Machine

/-! ### `State.beginOp` -/

@[simp] theorem State.beginOp_latch (s : State) : s.beginOp.latch = s.latch := rfl
@[simp] theorem State.beginOp_out (s : State) : s.beginOp.out = s.out := rfl
@[simp] theorem State.beginOp_inp (s : State) : s.beginOp.inp = s.inp := rfl
@[simp] theorem State.beginOp_cw (s : State) : s.beginOp.cw = s.cw := rfl
@[simp] theorem State.beginOp_modeA (s : State) : s.beginOp.modeA = s.modeA := rfl
@[simp] theorem State.beginOp_modeB (s : State) : s.beginOp.modeB = s.modeB := rfl
@[simp] theorem State.beginOp_aIn (s : State) : s.beginOp.aIn = s.aIn := rfl
@[simp] theorem State.beginOp_bIn (s : State) : s.beginOp.bIn = s.bIn := rfl
@[simp] theorem State.beginOp_cuIn (s : State) : s.beginOp.cuIn = s.cuIn := rfl
@[simp] theorem State.beginOp_clIn (s : State) : s.beginOp.clIn = s.clIn := rfl
@[simp] theorem State.beginOp_ibf (s : State) : s.beginOp.ibf = s.ibf := rfl
@[simp] theorem State.beginOp_obf (s : State) : s.beginOp.obf = s.obf := rfl
@[simp] theorem State.beginOp_intr (s : State) : s.beginOp.intr = s.intr := rfl
@[simp] theorem State.beginOp_stbActive (s : State) : s.beginOp.stbActive = s.stbActive := rfl
@[simp] theorem State.beginOp_answer (s : State) : s.beginOp.answer = Answer.empty := rfl
@[simp] theorem State.beginOp_pending (s : State) : s.beginOp.pending = s.pending := rfl

@[simp] theorem State.beginOp_mode (s : State) (k : Group) : s.beginOp.mode k = s.mode k := by cases k <;> rfl
@[simp] theorem State.beginOp_isIn (s : State) (k : Group) : s.beginOp.isIn k = s.isIn k := by cases k <;> rfl

/-! ### `State.emit` -/

@[simp] theorem State.emit_latch (s : State) (e : Event) : (s.emit e).latch = s.latch := rfl
@[simp] theorem State.emit_out (s : State) (e : Event) : (s.emit e).out = s.out := rfl
@[simp] theorem State.emit_inp (s : State) (e : Event) : (s.emit e).inp = s.inp := rfl
@[simp] theorem State.emit_cw (s : State) (e : Event) : (s.emit e).cw = s.cw := rfl
@[simp] theorem State.emit_modeA (s : State) (e : Event) : (s.emit e).modeA = s.modeA := rfl
@[simp] theorem State.emit_modeB (s : State) (e : Event) : (s.emit e).modeB = s.modeB := rfl
@[simp] theorem State.emit_aIn (s : State) (e : Event) : (s.emit e).aIn = s.aIn := rfl
@[simp] theorem State.emit_bIn (s : State) (e : Event) : (s.emit e).bIn = s.bIn := rfl
@[simp] theorem State.emit_cuIn (s : State) (e : Event) : (s.emit e).cuIn = s.cuIn := rfl
@[simp] theorem State.emit_clIn (s : State) (e : Event) : (s.emit e).clIn = s.clIn := rfl
@[simp] theorem State.emit_ibf (s : State) (e : Event) : (s.emit e).ibf = s.ibf := rfl
@[simp] theorem State.emit_obf (s : State) (e : Event) : (s.emit e).obf = s.obf := rfl
@[simp] theorem State.emit_intr (s : State) (e : Event) : (s.emit e).intr = s.intr := rfl
@[simp] theorem State.emit_stbActive (s : State) (e : Event) : (s.emit e).stbActive = s.stbActive := rfl
@[simp] theorem State.emit_answer (s : State) (e : Event) : (s.emit e).answer = { s.answer with events := s.answer.events ++ [e] } := rfl
@[simp] theorem State.emit_pending (s : State) (e : Event) : (s.emit e).pending = s.pending := rfl

@[simp] theorem State.emit_mode (s : State) (e : Event) (k : Group) : (s.emit e).mode k = s.mode k := by cases k <;> rfl
@[simp] theorem State.emit_isIn (s : State) (e : Event) (k : Group) : (s.emit e).isIn k = s.isIn k := by cases k <;> rfl

/-! ### `State.giveByte` -/

@[simp] theorem State.giveByte_latch (s : State) (v : Byte) : (s.giveByte v).latch = s.latch := rfl
@[simp] theorem State.giveByte_out (s : State) (v : Byte) : (s.giveByte v).out = s.out := rfl
@[simp] theorem State.giveByte_inp (s : State) (v : Byte) : (s.giveByte v).inp = s.inp := rfl
@[simp] theorem State.giveByte_cw (s : State) (v : Byte) : (s.giveByte v).cw = s.cw := rfl
@[simp] theorem State.giveByte_modeA (s : State) (v : Byte) : (s.giveByte v).modeA = s.modeA := rfl
@[simp] theorem State.giveByte_modeB (s : State) (v : Byte) : (s.giveByte v).modeB = s.modeB := rfl
@[simp] theorem State.giveByte_aIn (s : State) (v : Byte) : (s.giveByte v).aIn = s.aIn := rfl
@[simp] theorem State.giveByte_bIn (s : State) (v : Byte) : (s.giveByte v).bIn = s.bIn := rfl
@[simp] theorem State.giveByte_cuIn (s : State) (v : Byte) : (s.giveByte v).cuIn = s.cuIn := rfl
@[simp] theorem State.giveByte_clIn (s : State) (v : Byte) : (s.giveByte v).clIn = s.clIn := rfl
@[simp] theorem State.giveByte_ibf (s : State) (v : Byte) : (s.giveByte v).ibf = s.ibf := rfl
@[simp] theorem State.giveByte_obf (s : State) (v : Byte) : (s.giveByte v).obf = s.obf := rfl
@[simp] theorem State.giveByte_intr (s : State) (v : Byte) : (s.giveByte v).intr = s.intr := rfl
@[simp] theorem State.giveByte_stbActive (s : State) (v : Byte) : (s.giveByte v).stbActive = s.stbActive := rfl
@[simp] theorem State.giveByte_answer (s : State) (v : Byte) : (s.giveByte v).answer = { s.answer with ret := some v } := rfl
@[simp] theorem State.giveByte_pending (s : State) (v : Byte) : (s.giveByte v).pending = s.pending := rfl

@[simp] theorem State.giveByte_mode (s : State) (v : Byte) (k : Group) : (s.giveByte v).mode k = s.mode k := by cases k <;> rfl
@[simp] theorem State.giveByte_isIn (s : State) (v : Byte) (k : Group) : (s.giveByte v).isIn k = s.isIn k := by cases k <;> rfl

/-! ### `State.giveDiag` -/

@[simp] theorem State.giveDiag_latch (s : State) (d : Diag) : (s.giveDiag d).latch = s.latch := rfl
@[simp] theorem State.giveDiag_out (s : State) (d : Diag) : (s.giveDiag d).out = s.out := rfl
@[simp] theorem State.giveDiag_inp (s : State) (d : Diag) : (s.giveDiag d).inp = s.inp := rfl
@[simp] theorem State.giveDiag_cw (s : State) (d : Diag) : (s.giveDiag d).cw = s.cw := rfl
@[simp] theorem State.giveDiag_modeA (s : State) (d : Diag) : (s.giveDiag d).modeA = s.modeA := rfl
@[simp] theorem State.giveDiag_modeB (s : State) (d : Diag) : (s.giveDiag d).modeB = s.modeB := rfl
@[simp] theorem State.giveDiag_aIn (s : State) (d : Diag) : (s.giveDiag d).aIn = s.aIn := rfl
@[simp] theorem State.giveDiag_bIn (s : State) (d : Diag) : (s.giveDiag d).bIn = s.bIn := rfl
@[simp] theorem State.giveDiag_cuIn (s : State) (d : Diag) : (s.giveDiag d).cuIn = s.cuIn := rfl
@[simp] theorem State.giveDiag_clIn (s : State) (d : Diag) : (s.giveDiag d).clIn = s.clIn := rfl
@[simp] theorem State.giveDiag_ibf (s : State) (d : Diag) : (s.giveDiag d).ibf = s.ibf := rfl
@[simp] theorem State.giveDiag_obf (s : State) (d : Diag) : (s.giveDiag d).obf = s.obf := rfl
@[simp] theorem State.giveDiag_intr (s : State) (d : Diag) : (s.giveDiag d).intr = s.intr := rfl
@[simp] theorem State.giveDiag_stbActive (s : State) (d : Diag) : (s.giveDiag d).stbActive = s.stbActive := rfl
@[simp] theorem State.giveDiag_answer (s : State) (d : Diag) : (s.giveDiag d).answer = { s.answer with diag := some d } := rfl
@[simp] theorem State.giveDiag_pending (s : State) (d : Diag) : (s.giveDiag d).pending = s.pending := rfl

@[simp] theorem State.giveDiag_mode (s : State) (d : Diag) (k : Group) : (s.giveDiag d).mode k = s.mode k := by cases k <;> rfl
@[simp] theorem State.giveDiag_isIn (s : State) (d : Diag) (k : Group) : (s.giveDiag d).isIn k = s.isIn k := by cases k <;> rfl

/-! ### `State.setLatch` -/

@[simp] theorem State.setLatch_latch (s : State) (p : Port) (v : Byte) : (s.setLatch p v).latch = s.latch.set p v := rfl
@[simp] theorem State.setLatch_out (s : State) (p : Port) (v : Byte) : (s.setLatch p v).out = s.out := rfl
@[simp] theorem State.setLatch_inp (s : State) (p : Port) (v : Byte) : (s.setLatch p v).inp = s.inp := rfl
@[simp] theorem State.setLatch_cw (s : State) (p : Port) (v : Byte) : (s.setLatch p v).cw = s.cw := rfl
@[simp] theorem State.setLatch_modeA (s : State) (p : Port) (v : Byte) : (s.setLatch p v).modeA = s.modeA := rfl
@[simp] theorem State.setLatch_modeB (s : State) (p : Port) (v : Byte) : (s.setLatch p v).modeB = s.modeB := rfl
@[simp] theorem State.setLatch_aIn (s : State) (p : Port) (v : Byte) : (s.setLatch p v).aIn = s.aIn := rfl
@[simp] theorem State.setLatch_bIn (s : State) (p : Port) (v : Byte) : (s.setLatch p v).bIn = s.bIn := rfl
@[simp] theorem State.setLatch_cuIn (s : State) (p : Port) (v : Byte) : (s.setLatch p v).cuIn = s.cuIn := rfl
@[simp] theorem State.setLatch_clIn (s : State) (p : Port) (v : Byte) : (s.setLatch p v).clIn = s.clIn := rfl
@[simp] theorem State.setLatch_ibf (s : State) (p : Port) (v : Byte) : (s.setLatch p v).ibf = s.ibf := rfl
@[simp] theorem State.setLatch_obf (s : State) (p : Port) (v : Byte) : (s.setLatch p v).obf = s.obf := rfl
@[simp] theorem State.setLatch_intr (s : State) (p : Port) (v : Byte) : (s.setLatch p v).intr = s.intr := rfl
@[simp] theorem State.setLatch_stbActive (s : State) (p : Port) (v : Byte) : (s.setLatch p v).stbActive = s.stbActive := rfl
@[simp] theorem State.setLatch_answer (s : State) (p : Port) (v : Byte) : (s.setLatch p v).answer = s.answer := rfl
@[simp] theorem State.setLatch_pending (s : State) (p : Port) (v : Byte) : (s.setLatch p v).pending = s.pending := rfl

@[simp] theorem State.setLatch_mode (s : State) (p : Port) (v : Byte) (k : Group) : (s.setLatch p v).mode k = s.mode k := by cases k <;> rfl
@[simp] theorem State.setLatch_isIn (s : State) (p : Port) (v : Byte) (k : Group) : (s.setLatch p v).isIn k = s.isIn k := by cases k <;> rfl

/-! ### `State.setOut` -/

@[simp] theorem State.setOut_latch (s : State) (p : Port) (v : Byte) : (s.setOut p v).latch = s.latch := rfl
@[simp] theorem State.setOut_out (s : State) (p : Port) (v : Byte) : (s.setOut p v).out = s.out.set p v := rfl
@[simp] theorem State.setOut_inp (s : State) (p : Port) (v : Byte) : (s.setOut p v).inp = s.inp := rfl
@[simp] theorem State.setOut_cw (s : State) (p : Port) (v : Byte) : (s.setOut p v).cw = s.cw := rfl
@[simp] theorem State.setOut_modeA (s : State) (p : Port) (v : Byte) : (s.setOut p v).modeA = s.modeA := rfl
@[simp] theorem State.setOut_modeB (s : State) (p : Port) (v : Byte) : (s.setOut p v).modeB = s.modeB := rfl
@[simp] theorem State.setOut_aIn (s : State) (p : Port) (v : Byte) : (s.setOut p v).aIn = s.aIn := rfl
@[simp] theorem State.setOut_bIn (s : State) (p : Port) (v : Byte) : (s.setOut p v).bIn = s.bIn := rfl
@[simp] theorem State.setOut_cuIn (s : State) (p : Port) (v : Byte) : (s.setOut p v).cuIn = s.cuIn := rfl
@[simp] theorem State.setOut_clIn (s : State) (p : Port) (v : Byte) : (s.setOut p v).clIn = s.clIn := rfl
@[simp] theorem State.setOut_ibf (s : State) (p : Port) (v : Byte) : (s.setOut p v).ibf = s.ibf := rfl
@[simp] theorem State.setOut_obf (s : State) (p : Port) (v : Byte) : (s.setOut p v).obf = s.obf := rfl
@[simp] theorem State.setOut_intr (s : State) (p : Port) (v : Byte) : (s.setOut p v).intr = s.intr := rfl
@[simp] theorem State.setOut_stbActive (s : State) (p : Port) (v : Byte) : (s.setOut p v).stbActive = s.stbActive := rfl
@[simp] theorem State.setOut_answer (s : State) (p : Port) (v : Byte) : (s.setOut p v).answer = s.answer := rfl
@[simp] theorem State.setOut_pending (s : State) (p : Port) (v : Byte) : (s.setOut p v).pending = s.pending := rfl

@[simp] theorem State.setOut_mode (s : State) (p : Port) (v : Byte) (k : Group) : (s.setOut p v).mode k = s.mode k := by cases k <;> rfl
@[simp] theorem State.setOut_isIn (s : State) (p : Port) (v : Byte) (k : Group) : (s.setOut p v).isIn k = s.isIn k := by cases k <;> rfl

/-! ### `State.setInp` -/

@[simp] theorem State.setInp_latch (s : State) (p : Port) (v : Byte) : (s.setInp p v).latch = s.latch := rfl
@[simp] theorem State.setInp_out (s : State) (p : Port) (v : Byte) : (s.setInp p v).out = s.out := rfl
@[simp] theorem State.setInp_inp (s : State) (p : Port) (v : Byte) : (s.setInp p v).inp = s.inp.set p v := rfl
@[simp] theorem State.setInp_cw (s : State) (p : Port) (v : Byte) : (s.setInp p v).cw = s.cw := rfl
@[simp] theorem State.setInp_modeA (s : State) (p : Port) (v : Byte) : (s.setInp p v).modeA = s.modeA := rfl
@[simp] theorem State.setInp_modeB (s : State) (p : Port) (v : Byte) : (s.setInp p v).modeB = s.modeB := rfl
@[simp] theorem State.setInp_aIn (s : State) (p : Port) (v : Byte) : (s.setInp p v).aIn = s.aIn := rfl
@[simp] theorem State.setInp_bIn (s : State) (p : Port) (v : Byte) : (s.setInp p v).bIn = s.bIn := rfl
@[simp] theorem State.setInp_cuIn (s : State) (p : Port) (v : Byte) : (s.setInp p v).cuIn = s.cuIn := rfl
@[simp] theorem State.setInp_clIn (s : State) (p : Port) (v : Byte) : (s.setInp p v).clIn = s.clIn := rfl
@[simp] theorem State.setInp_ibf (s : State) (p : Port) (v : Byte) : (s.setInp p v).ibf = s.ibf := rfl
@[simp] theorem State.setInp_obf (s : State) (p : Port) (v : Byte) : (s.setInp p v).obf = s.obf := rfl
@[simp] theorem State.setInp_intr (s : State) (p : Port) (v : Byte) : (s.setInp p v).intr = s.intr := rfl
@[simp] theorem State.setInp_stbActive (s : State) (p : Port) (v : Byte) : (s.setInp p v).stbActive = s.stbActive := rfl
@[simp] theorem State.setInp_answer (s : State) (p : Port) (v : Byte) : (s.setInp p v).answer = s.answer := rfl
@[simp] theorem State.setInp_pending (s : State) (p : Port) (v : Byte) : (s.setInp p v).pending = s.pending := rfl

@[simp] theorem State.setInp_mode (s : State) (p : Port) (v : Byte) (k : Group) : (s.setInp p v).mode k = s.mode k := by cases k <;> rfl
@[simp] theorem State.setInp_isIn (s : State) (p : Port) (v : Byte) (k : Group) : (s.setInp p v).isIn k = s.isIn k := by cases k <;> rfl

/-! ### `State.strobeFlags` -/

@[simp] theorem State.strobeFlags_latch (s : State) (g : Group) : (s.strobeFlags g).latch = s.latch := rfl
@[simp] theorem State.strobeFlags_out (s : State) (g : Group) : (s.strobeFlags g).out = s.out := rfl
@[simp] theorem State.strobeFlags_inp (s : State) (g : Group) : (s.strobeFlags g).inp = s.inp := rfl
@[simp] theorem State.strobeFlags_cw (s : State) (g : Group) : (s.strobeFlags g).cw = s.cw := rfl
@[simp] theorem State.strobeFlags_modeA (s : State) (g : Group) : (s.strobeFlags g).modeA = s.modeA := rfl
@[simp] theorem State.strobeFlags_modeB (s : State) (g : Group) : (s.strobeFlags g).modeB = s.modeB := rfl
@[simp] theorem State.strobeFlags_aIn (s : State) (g : Group) : (s.strobeFlags g).aIn = s.aIn := rfl
@[simp] theorem State.strobeFlags_bIn (s : State) (g : Group) : (s.strobeFlags g).bIn = s.bIn := rfl
@[simp] theorem State.strobeFlags_cuIn (s : State) (g : Group) : (s.strobeFlags g).cuIn = s.cuIn := rfl
@[simp] theorem State.strobeFlags_clIn (s : State) (g : Group) : (s.strobeFlags g).clIn = s.clIn := rfl
@[simp] theorem State.strobeFlags_ibf (s : State) (g : Group) : (s.strobeFlags g).ibf = s.ibf.set g true := rfl
@[simp] theorem State.strobeFlags_obf (s : State) (g : Group) : (s.strobeFlags g).obf = s.obf := rfl
@[simp] theorem State.strobeFlags_intr (s : State) (g : Group) : (s.strobeFlags g).intr = s.intr.set g true := rfl
@[simp] theorem State.strobeFlags_stbActive (s : State) (g : Group) : (s.strobeFlags g).stbActive = s.stbActive := rfl
@[simp] theorem State.strobeFlags_answer (s : State) (g : Group) : (s.strobeFlags g).answer = s.answer := rfl
@[simp] theorem State.strobeFlags_pending (s : State) (g : Group) : (s.strobeFlags g).pending = s.pending := rfl

@[simp] theorem State.strobeFlags_mode (s : State) (g : Group) (k : Group) : (s.strobeFlags g).mode k = s.mode k := by cases k <;> rfl
@[simp] theorem State.strobeFlags_isIn (s : State) (g : Group) (k : Group) : (s.strobeFlags g).isIn k = s.isIn k := by cases k <;> rfl

/-! ### `State.cpuReadFlags` -/

@[simp] theorem State.cpuReadFlags_latch (s : State) (g : Group) : (s.cpuReadFlags g).latch = s.latch := rfl
@[simp] theorem State.cpuReadFlags_out (s : State) (g : Group) : (s.cpuReadFlags g).out = s.out := rfl
@[simp] theorem State.cpuReadFlags_inp (s : State) (g : Group) : (s.cpuReadFlags g).inp = s.inp := rfl
@[simp] theorem State.cpuReadFlags_cw (s : State) (g : Group) : (s.cpuReadFlags g).cw = s.cw := rfl
@[simp] theorem State.cpuReadFlags_modeA (s : State) (g : Group) : (s.cpuReadFlags g).modeA = s.modeA := rfl
@[simp] theorem State.cpuReadFlags_modeB (s : State) (g : Group) : (s.cpuReadFlags g).modeB = s.modeB := rfl
@[simp] theorem State.cpuReadFlags_aIn (s : State) (g : Group) : (s.cpuReadFlags g).aIn = s.aIn := rfl
@[simp] theorem State.cpuReadFlags_bIn (s : State) (g : Group) : (s.cpuReadFlags g).bIn = s.bIn := rfl
@[simp] theorem State.cpuReadFlags_cuIn (s : State) (g : Group) : (s.cpuReadFlags g).cuIn = s.cuIn := rfl
@[simp] theorem State.cpuReadFlags_clIn (s : State) (g : Group) : (s.cpuReadFlags g).clIn = s.clIn := rfl
@[simp] theorem State.cpuReadFlags_ibf (s : State) (g : Group) : (s.cpuReadFlags g).ibf = s.ibf.set g false := rfl
@[simp] theorem State.cpuReadFlags_obf (s : State) (g : Group) : (s.cpuReadFlags g).obf = s.obf := rfl
@[simp] theorem State.cpuReadFlags_intr (s : State) (g : Group) : (s.cpuReadFlags g).intr = s.intr.set g false := rfl
@[simp] theorem State.cpuReadFlags_stbActive (s : State) (g : Group) : (s.cpuReadFlags g).stbActive = s.stbActive := rfl
@[simp] theorem State.cpuReadFlags_answer (s : State) (g : Group) : (s.cpuReadFlags g).answer = s.answer := rfl
@[simp] theorem State.cpuReadFlags_pending (s : State) (g : Group) : (s.cpuReadFlags g).pending = s.pending := rfl

@[simp] theorem State.cpuReadFlags_mode (s : State) (g : Group) (k : Group) : (s.cpuReadFlags g).mode k = s.mode k := by cases k <;> rfl
@[simp] theorem State.cpuReadFlags_isIn (s : State) (g : Group) (k : Group) : (s.cpuReadFlags g).isIn k = s.isIn k := by cases k <;> rfl

/-! ### `State.cpuWriteFlags` -/

@[simp] theorem State.cpuWriteFlags_latch (s : State) (g : Group) : (s.cpuWriteFlags g).latch = s.latch := rfl
@[simp] theorem State.cpuWriteFlags_out (s : State) (g : Group) : (s.cpuWriteFlags g).out = s.out := rfl
@[simp] theorem State.cpuWriteFlags_inp (s : State) (g : Group) : (s.cpuWriteFlags g).inp = s.inp := rfl
@[simp] theorem State.cpuWriteFlags_cw (s : State) (g : Group) : (s.cpuWriteFlags g).cw = s.cw := rfl
@[simp] theorem State.cpuWriteFlags_modeA (s : State) (g : Group) : (s.cpuWriteFlags g).modeA = s.modeA := rfl
@[simp] theorem State.cpuWriteFlags_modeB (s : State) (g : Group) : (s.cpuWriteFlags g).modeB = s.modeB := rfl
@[simp] theorem State.cpuWriteFlags_aIn (s : State) (g : Group) : (s.cpuWriteFlags g).aIn = s.aIn := rfl
@[simp] theorem State.cpuWriteFlags_bIn (s : State) (g : Group) : (s.cpuWriteFlags g).bIn = s.bIn := rfl
@[simp] theorem State.cpuWriteFlags_cuIn (s : State) (g : Group) : (s.cpuWriteFlags g).cuIn = s.cuIn := rfl
@[simp] theorem State.cpuWriteFlags_clIn (s : State) (g : Group) : (s.cpuWriteFlags g).clIn = s.clIn := rfl
@[simp] theorem State.cpuWriteFlags_ibf (s : State) (g : Group) : (s.cpuWriteFlags g).ibf = s.ibf := rfl
@[simp] theorem State.cpuWriteFlags_obf (s : State) (g : Group) : (s.cpuWriteFlags g).obf = s.obf.set g false := rfl
@[simp] theorem State.cpuWriteFlags_intr (s : State) (g : Group) : (s.cpuWriteFlags g).intr = s.intr.set g true := rfl
@[simp] theorem State.cpuWriteFlags_stbActive (s : State) (g : Group) : (s.cpuWriteFlags g).stbActive = s.stbActive := rfl
@[simp] theorem State.cpuWriteFlags_answer (s : State) (g : Group) : (s.cpuWriteFlags g).answer = s.answer := rfl
@[simp] theorem State.cpuWriteFlags_pending (s : State) (g : Group) : (s.cpuWriteFlags g).pending = s.pending := rfl

@[simp] theorem State.cpuWriteFlags_mode (s : State) (g : Group) (k : Group) : (s.cpuWriteFlags g).mode k = s.mode k := by cases k <;> rfl
@[simp] theorem State.cpuWriteFlags_isIn (s : State) (g : Group) (k : Group) : (s.cpuWriteFlags g).isIn k = s.isIn k := by cases k <;> rfl

/-! ### `State.ackFlags` -/

@[simp] theorem State.ackFlags_latch (s : State) (g : Group) : (s.ackFlags g).latch = s.latch := rfl
@[simp] theorem State.ackFlags_out (s : State) (g : Group) : (s.ackFlags g).out = s.out := rfl
@[simp] theorem State.ackFlags_inp (s : State) (g : Group) : (s.ackFlags g).inp = s.inp := rfl
@[simp] theorem State.ackFlags_cw (s : State) (g : Group) : (s.ackFlags g).cw = s.cw := rfl
@[simp] theorem State.ackFlags_modeA (s : State) (g : Group) : (s.ackFlags g).modeA = s.modeA := rfl
@[simp] theorem State.ackFlags_modeB (s : State) (g : Group) : (s.ackFlags g).modeB = s.modeB := rfl
@[simp] theorem State.ackFlags_aIn (s : State) (g : Group) : (s.ackFlags g).aIn = s.aIn := rfl
@[simp] theorem State.ackFlags_bIn (s : State) (g : Group) : (s.ackFlags g).bIn = s.bIn := rfl
@[simp] theorem State.ackFlags_cuIn (s : State) (g : Group) : (s.ackFlags g).cuIn = s.cuIn := rfl
@[simp] theorem State.ackFlags_clIn (s : State) (g : Group) : (s.ackFlags g).clIn = s.clIn := rfl
@[simp] theorem State.ackFlags_ibf (s : State) (g : Group) : (s.ackFlags g).ibf = s.ibf := rfl
@[simp] theorem State.ackFlags_obf (s : State) (g : Group) : (s.ackFlags g).obf = s.obf.set g true := rfl
@[simp] theorem State.ackFlags_intr (s : State) (g : Group) : (s.ackFlags g).intr = s.intr.set g false := rfl
@[simp] theorem State.ackFlags_stbActive (s : State) (g : Group) : (s.ackFlags g).stbActive = s.stbActive := rfl
@[simp] theorem State.ackFlags_answer (s : State) (g : Group) : (s.ackFlags g).answer = s.answer := rfl
@[simp] theorem State.ackFlags_pending (s : State) (g : Group) : (s.ackFlags g).pending = s.pending := rfl

@[simp] theorem State.ackFlags_mode (s : State) (g : Group) (k : Group) : (s.ackFlags g).mode k = s.mode k := by cases k <;> rfl
@[simp] theorem State.ackFlags_isIn (s : State) (g : Group) (k : Group) : (s.ackFlags g).isIn k = s.isIn k := by cases k <;> rfl

end Sys2Proof.Machine
end

