-- ==== Sys2Proof/Laws/Ops.lean ====
section
/-! SUPPORT. For each shared operation, once, all that it can do. -/

namespace Sys2Proof.Machine

/-! ### The handshake transitions -/

theorem State.strobeAccepted_iff (s : State) (g : Group) :
    s.strobeAccepted g = true ↔ s.mode g = .mode1Input ∧ s.ibf.get g = false := by
  simp [State.strobeAccepted]

theorem strobe_of_accepted {g : Group} {s : State} (hm : s.mode g = .mode1Input) (hf : s.ibf.get g = false) :
    strobe g s =
      { s with
        latch := s.latch.set (groupPort g) (s.inp.get (groupPort g))
        ibf := s.ibf.set g true
        intr := s.intr.set g true
        answer := { s.answer with events := s.answer.events ++ [.ibf g true] ++ [.intr g true] } } := by
  have h : s.strobeAccepted g = true := (s.strobeAccepted_iff g).2 ⟨hm, hf⟩
  simp only [strobe, h, if_true]
  rfl

theorem strobe_of_not_accepted {g : Group} {s : State} (h : s.mode g ≠ .mode1Input ∨ s.ibf.get g = true) :
    strobe g s = s := by
  have h' : ¬ s.strobeAccepted g = true := by
    rw [s.strobeAccepted_iff]
    rintro ⟨hm, hf⟩
    rcases h with h | h
    · exact h hm
    · simp [h] at hf
  simp only [strobe, if_neg h']

theorem cpuRead_eq (g : Group) (s : State) :
    cpuRead g s =
      { s with
        ibf := s.ibf.set g false
        intr := s.intr.set g false
        answer := { s.answer with events := s.answer.events ++ [.ibf g false] ++ [.intr g false] } } := rfl

theorem cpuWrite_eq (g : Group) (s : State) :
    cpuWrite g s =
      { s with
        obf := s.obf.set g false
        intr := s.intr.set g true
        out := s.out.set (groupPort g) (s.latch.get (groupPort g))
        answer := { s.answer with
          events := s.answer.events ++ [.obf g false (s.latch.get (groupPort g))] ++ [.intr g true] } } := by
  cases g <;> rfl

theorem acknowledge_of_mode1Output {g : Group} {s : State} (hm : s.mode g = .mode1Output) :
    acknowledge g s =
      { s with
        obf := s.obf.set g true
        intr := s.intr.set g false
        answer := { s.answer with events := s.answer.events ++ [.obf g true 0xFF] ++ [.intr g false] } } := by
  simp only [acknowledge, hm, if_true]
  rfl

theorem acknowledge_of_ne {g : Group} {s : State} (hm : s.mode g ≠ .mode1Output) : acknowledge g s = s := by
  simp only [acknowledge, if_neg hm]

/-! ### The access policy -/

/-- All that the policy can do to the state: nothing, a CPU read in Mode 1 Input, or a CPU write in Mode 1 Output. -/
theorem policy_cases (p : Port) (op : Access) (s : State) :
    (policy p op s).2 = s ∨
    (∃ g, p = groupPort g ∧ op = .read ∧ s.mode g = .mode1Input ∧ policy p op s = (.ok, cpuRead g s)) ∨
    (∃ g, p = groupPort g ∧ op = .write ∧ s.mode g = .mode1Output ∧ policy p op s = (.ok, cpuWrite g s)) := by
  have hg : ∀ g : Group, policy (groupPort g) op s = groupPolicy g op s := fun g => by cases g <;> rfl
  have key : ∀ g : Group,
      (groupPolicy g op s).2 = s ∨
      (op = .read ∧ s.mode g = .mode1Input ∧ groupPolicy g op s = (.ok, cpuRead g s)) ∨
      (op = .write ∧ s.mode g = .mode1Output ∧ groupPolicy g op s = (.ok, cpuWrite g s)) := by
    intro g
    unfold groupPolicy
    cases h : s.mode g <;> cases op <;> simp
  cases p with
  | A =>
    rcases key .A with h | ⟨ho, hm, h⟩ | ⟨ho, hm, h⟩
    · exact .inl h
    · exact .inr (.inl ⟨.A, rfl, ho, hm, h⟩)
    · exact .inr (.inr ⟨.A, rfl, ho, hm, h⟩)
  | B =>
    rcases key .B with h | ⟨ho, hm, h⟩ | ⟨ho, hm, h⟩
    · exact .inl h
    · exact .inr (.inl ⟨.B, rfl, ho, hm, h⟩)
    · exact .inr (.inr ⟨.B, rfl, ho, hm, h⟩)
  | C => exact .inl rfl

/-- The policy never changes a latch, an input, the configuration or the stream. -/
theorem policy_frame (p : Port) (op : Access) (s : State) :
    let t := (policy p op s).2
    t.latch = s.latch ∧ t.inp = s.inp ∧ t.cw = s.cw ∧ t.modeA = s.modeA ∧ t.modeB = s.modeB ∧
    t.aIn = s.aIn ∧ t.bIn = s.bIn ∧ t.cuIn = s.cuIn ∧ t.clIn = s.clIn ∧
    t.stbActive = s.stbActive ∧ t.pending = s.pending := by
  rcases policy_cases p op s with h | ⟨g, -, -, -, h⟩ | ⟨g, -, -, -, h⟩
  · simp only [h, and_self]
  · simp only [h, cpuRead_eq, and_self]
  · simp only [h, cpuWrite_eq, and_self]

/-- A read by the policy never changes an output register. -/
theorem policy_read_out (p : Port) (s : State) : (policy p .read s).2.out = s.out := by
  rcases policy_cases p .read s with h | ⟨g, -, -, -, h⟩ | ⟨g, -, h, -, -⟩
  · simp only [h]
  · simp only [h, cpuRead_eq]
  · cases h

/-! ### The port accesses -/

theorem readPort_eq (p : Port) (s : State) :
    readPort p s =
      ((policy p .read s).2.giveDiag (outcomeDiag (policy p .read s).1)).giveByte
        (returnByte (policy p .read s).1 (s.inp.get p) (s.latch.get p)) := by
  have h := policy_frame p .read s
  simp only at h
  simp only [readPort, h.1, h.2.1]

theorem writePort_latch (p : Port) (v : Byte) (s : State) : (writePort p v s).latch = s.latch.set p v := by
  have h := (policy_frame p .write (s.setLatch p v)).1
  simp only [writePort]
  split <;> simpa using h

/-! ### The control-word decoder -/

theorem applyStandard_eq (v : Byte) (s : State) :
    applyStandard v s =
      { s with
        cw := v
        modeA := decodeModeA v
        modeB := decodeModeB v
        aIn := v.getLsbD 4
        cuIn := v.getLsbD 3
        bIn := v.getLsbD 1
        clIn := v.getLsbD 0
        ibf := ⟨false, false⟩
        obf := ⟨false, false⟩
        intr := ⟨false, false⟩
        stbActive := ⟨false, false⟩
        answer := { s.answer with diag := some .standard } } := rfl

theorem applyBsr_eq (v : Byte) (s : State) :
    applyBsr v s =
      { s with
        latch := { s.latch with c := withBit s.latch.c (bsrBitNumber v) (bsrSet v) }
        answer := { s.answer with diag := some .bsr } } := rfl

/-! ### The stream -/

@[simp] theorem fetch_nil {s : State} (h : s.pending = []) : fetch s = none := by
  simp only [fetch, h]

@[simp] theorem fetch_cons {s : State} {w : OpWord} {rest : List OpWord} (h : s.pending = w :: rest) :
    fetch s = some (w, { s with pending := rest }) := by
  simp only [fetch, h]

@[simp] theorem fetch_present (w : OpWord) (s : State) : fetch (present w s) = some (w, s) := rfl

end Sys2Proof.Machine
end

