-- ==== Sys2Proof/Laws/PerInstr.lean ====
section
/-! SUPPORT. Laws of the instruction as syntax, one lemma per constructor of `Instr`. -/

namespace Sys2Proof

/-- The word of a well-formed operation has the fixed bits of the operation's own row of the opcode table, and the row
spells that operation with the word's low byte (30_encoding.md R51). -/
def Laws.EncodesToItsRow.Statement (i : Instr) : Prop :=
  i.wf = true → ∃ r ∈ opcodeTable,
    r.mnemonic = i.mnemonic ∧ r.matchesWord (encode i) = true ∧ r.instr (opData (encode i)) = i

/-- A row that fixes bits 11:8 is matched by every word with those bits. -/
theorem OpcodeRow.matchesWord_of_F00 {r : OpcodeRow} {c e : BitVec 2} (hm : r.mask = 0xF00)
    (hp : r.pattern = opWord c e 0) (d : Byte) : r.matchesWord (opWord c e d) = true := by
  simp only [OpcodeRow.matchesWord, hm, hp, opWord_and_F00, beq_self_eq_true]

/-- A row that fixes bits 11:7 is matched by every word with those bits. -/
theorem OpcodeRow.matchesWord_of_F80 {r : OpcodeRow} {c e : BitVec 2} {d : Byte} (hm : r.mask = 0xF80)
    (hp : r.pattern = opWord c e (if d.getLsbD 7 then 0x80 else 0)) : r.matchesWord (opWord c e d) = true := by
  simp only [OpcodeRow.matchesWord, hm, hp, opWord_and_F80, beq_self_eq_true]

theorem Laws.EncodesToItsRow.rda : EncodesToItsRow.Statement .rda := fun _ =>
  ⟨opcodeTable[0], List.getElem_mem _, rfl, OpcodeRow.matchesWord_of_F00 rfl rfl _, rfl⟩

theorem Laws.EncodesToItsRow.rdb : EncodesToItsRow.Statement .rdb := fun _ =>
  ⟨opcodeTable[1], List.getElem_mem _, rfl, OpcodeRow.matchesWord_of_F00 rfl rfl _, rfl⟩

theorem Laws.EncodesToItsRow.rdc : EncodesToItsRow.Statement .rdc := fun _ =>
  ⟨opcodeTable[2], List.getElem_mem _, rfl, OpcodeRow.matchesWord_of_F00 rfl rfl _, rfl⟩

theorem Laws.EncodesToItsRow.rdcw : EncodesToItsRow.Statement .rdcw := fun _ =>
  ⟨opcodeTable[3], List.getElem_mem _, rfl, OpcodeRow.matchesWord_of_F00 rfl rfl _, rfl⟩

theorem Laws.EncodesToItsRow.wra (v : Byte) : EncodesToItsRow.Statement (.wra v) := fun _ =>
  ⟨opcodeTable[4], List.getElem_mem _, rfl, OpcodeRow.matchesWord_of_F00 rfl rfl _, congrArg Instr.wra (opData_opWord _ _ _)⟩

theorem Laws.EncodesToItsRow.wrb (v : Byte) : EncodesToItsRow.Statement (.wrb v) := fun _ =>
  ⟨opcodeTable[5], List.getElem_mem _, rfl, OpcodeRow.matchesWord_of_F00 rfl rfl _, congrArg Instr.wrb (opData_opWord _ _ _)⟩

theorem Laws.EncodesToItsRow.wrc (v : Byte) : EncodesToItsRow.Statement (.wrc v) := fun _ =>
  ⟨opcodeTable[6], List.getElem_mem _, rfl, OpcodeRow.matchesWord_of_F00 rfl rfl _, congrArg Instr.wrc (opData_opWord _ _ _)⟩

theorem Laws.EncodesToItsRow.modeset (v : Byte) : EncodesToItsRow.Statement (.modeset v) := fun h => by
  have h7 : v.getLsbD 7 = true := h
  exact ⟨opcodeTable[7], List.getElem_mem _, rfl, OpcodeRow.matchesWord_of_F80 rfl (by rw [h7]; rfl),
    congrArg Instr.modeset (opData_opWord _ _ _)⟩

theorem Laws.EncodesToItsRow.bsr (v : Byte) : EncodesToItsRow.Statement (.bsr v) := fun h => by
  have h7 : v.getLsbD 7 = false := Bool.not_eq_eq_eq_not.mp h
  exact ⟨opcodeTable[8], List.getElem_mem _, rfl, OpcodeRow.matchesWord_of_F80 rfl (by rw [h7]; rfl),
    congrArg Instr.bsr (opData_opWord _ _ _)⟩

theorem Laws.EncodesToItsRow.stb (g : Byte) : EncodesToItsRow.Statement (.stb g) := fun _ =>
  ⟨opcodeTable[9], List.getElem_mem _, rfl, OpcodeRow.matchesWord_of_F00 rfl rfl _, congrArg Instr.stb (opData_opWord _ _ _)⟩

theorem Laws.EncodesToItsRow.ack (g : Byte) : EncodesToItsRow.Statement (.ack g) := fun _ =>
  ⟨opcodeTable[10], List.getElem_mem _, rfl, OpcodeRow.matchesWord_of_F00 rfl rfl _, congrArg Instr.ack (opData_opWord _ _ _)⟩

theorem Laws.EncodesToItsRow.reset : EncodesToItsRow.Statement .reset := fun _ =>
  ⟨opcodeTable[11], List.getElem_mem _, rfl, OpcodeRow.matchesWord_of_F00 rfl rfl _, rfl⟩

theorem Laws.EncodesToItsRow.setina (v : Byte) : EncodesToItsRow.Statement (.setina v) := fun _ =>
  ⟨opcodeTable[12], List.getElem_mem _, rfl, OpcodeRow.matchesWord_of_F00 rfl rfl _, congrArg Instr.setina (opData_opWord _ _ _)⟩

theorem Laws.EncodesToItsRow.setinb (v : Byte) : EncodesToItsRow.Statement (.setinb v) := fun _ =>
  ⟨opcodeTable[13], List.getElem_mem _, rfl, OpcodeRow.matchesWord_of_F00 rfl rfl _, congrArg Instr.setinb (opData_opWord _ _ _)⟩

theorem Laws.EncodesToItsRow.setinc (v : Byte) : EncodesToItsRow.Statement (.setinc v) := fun _ =>
  ⟨opcodeTable[14], List.getElem_mem _, rfl, OpcodeRow.matchesWord_of_F00 rfl rfl _, congrArg Instr.setinc (opData_opWord _ _ _)⟩

end Sys2Proof
end

