-- ==== Sys2Proof/Laws/Step.lean ====
section
/-! SUPPORT. What a step can do, and how a run unfolds. -/

namespace Sys2Proof.Machine

/-- A step that answers a next state is the rest with nothing presented, or the meaning of the decoded operation. -/
theorem step_cases {s t : State} (h : step s = .next t) :
    (s.pending = [] ∧ t = s.beginOp) ∨
    ∃ w rest i, s.pending = w :: rest ∧ decode w = .ok i ∧ exec i { s with pending := rest } = .next t := by
  cases hp : s.pending with
  | nil =>
    simp only [step, fetch_nil hp, Host.Outcome.next.injEq] at h
    exact .inl ⟨rfl, h.symm⟩
  | cons w rest =>
    simp only [step, fetch_cons hp] at h
    cases hd : decode w with
    | ok i =>
      rw [hd] at h
      exact .inr ⟨w, rest, i, rfl, hd, h⟩
    | error why =>
      rw [hd] at h
      cases h

theorem step_of_next_word {s : State} {w : OpWord} {rest : List OpWord} (h : s.pending = w :: rest) :
    step s =
      match decode w with
      | .ok i => exec i { s with pending := rest }
      | .error why => .refused (.reservedWord why) := by
  cases hd : decode w <;> simp only [step, fetch_cons h, hd]

theorem core_run_zero (s : State) : Host.Core.run Sys2Proof.core 0 s = .next s := rfl

/-- A run whose first step answers a next state goes on from there. -/
theorem core_run_succ {n : Nat} {s t : State} (h : step s = .next t) :
    Host.Core.run Sys2Proof.core (n + 1) s = Host.Core.run Sys2Proof.core n t := by
  have h' : Sys2Proof.core.step s = .next t := h
  simp only [Host.Core.run, h']

/-! ### Sequences of operations -/

@[simp] theorem execAll_nil (s : State) : execAll [] s = .next s := rfl

theorem execAll_cons_of_next {i : Instr} {is : List Instr} {s t : State} (h : exec i s = .next t) :
    execAll (i :: is) s = execAll is t := by
  simp only [execAll, h]

@[simp] theorem answersOf_nil (s : State) : answersOf [] s = [] := rfl

theorem answersOf_cons_of_next {i : Instr} {is : List Instr} {s t : State} (h : exec i s = .next t) :
    answersOf (i :: is) s = t.answer :: answersOf is t := by
  simp only [answersOf, h]

end Sys2Proof.Machine
end

