-- ==== Sys2Proof/Tests/Slice0.lean ====
section
/-! SUPPORT. Tests whose expected values come from the spec's own tables (95_test_vectors.md unless a comment names
another file), and a witness for the hypotheses of every statement that has some. -/

namespace Sys2Proof.Machine.Tests

/-! ### Helpers -/

/-- One view of the state after an operation. -/
def after {α : Type} (o : Host.Outcome State Fault Refusal) (f : State → α) : Option α :=
  match o with
  | .next t => some (f t)
  | .fault _ => none
  | .refused _ => none

/-- The reset state with Port A and B in the named modes and directions; Port C all output. -/
def inModes (a : Mode) (b : ModeB) (aIn bIn : Bool) : State :=
  { State.reset with modeA := a, modeB := b, aIn := aIn, bIn := bIn, cuIn := false, clIn := false }

/-- Port A and B Mode 0 output, as control byte 0x80 sets them. -/
def allOutput : State := { inModes .mode0 .mode0 false false with cw := 0x80 }

/-- Port A and B in Mode 1 Input, as control byte 0xB6 sets them. -/
def bothInput1 : State := { inModes .mode1Input .mode1Input true true with cw := 0xB6 }

/-- Port A and B in Mode 1 Output, as control byte 0xA4 sets them. -/
def bothOutput1 : State := { inModes .mode1Output .mode1Output false false with cw := 0xA4 }

/-- Port A in Mode 2, as control byte 0xC0 sets it. -/
def inMode2 : State := { inModes .mode2 .mode0 false false with cw := 0xC0 }

/-! ### Well-formedness: an ill-formed term for each check (30_encoding.md R52) -/

theorem test_wf_refuses_modeset_with_bit7_clear : (Instr.modeset 0x05).wf = false := by decide
theorem test_wf_refuses_bsr_with_bit7_set : (Instr.bsr 0x85).wf = false := by decide
theorem test_wf_accepts_both_formats : (Instr.modeset 0x80).wf = true ∧ (Instr.bsr 0x7F).wf = true := by decide

/-! ### Decoding: V1, each row of the table from a word written out bit by bit -/

theorem test_decode_rda : decode 0b000000000000 = .ok .rda ∧ decode 0b000011111111 = .ok .rda := ⟨rfl, rfl⟩
theorem test_decode_rdb : decode 0b000110100101 = .ok .rdb := rfl
theorem test_decode_rdc : decode 0b001000000000 = .ok .rdc := rfl
theorem test_decode_rdcw : decode 0b001100000000 = .ok .rdcw ∧ decode 0b001111111111 = .ok .rdcw := ⟨rfl, rfl⟩
theorem test_decode_wra : decode 0b010001000010 = .ok (.wra 0x42) := rfl
theorem test_decode_wrb : decode 0b010100000000 = .ok (.wrb 0x00) := rfl
theorem test_decode_wrc : decode 0b011011111111 = .ok (.wrc 0xFF) := rfl
theorem test_decode_modeset : decode 0b011110000000 = .ok (.modeset 0x80) ∧ decode 0b011110011011 = .ok (.modeset 0x9B) :=
  ⟨rfl, rfl⟩
theorem test_decode_bsr : decode 0b011100000000 = .ok (.bsr 0x00) ∧ decode 0b011101111111 = .ok (.bsr 0x7F) := ⟨rfl, rfl⟩
theorem test_decode_stb : decode 0b100000000000 = .ok (.stb 0) ∧ decode 0b100011111111 = .ok (.stb 255) := ⟨rfl, rfl⟩
theorem test_decode_ack : decode 0b100100000010 = .ok (.ack 2) := rfl
theorem test_decode_reset : decode 0b101000000000 = .ok .reset ∧ decode 0b101001011010 = .ok .reset := ⟨rfl, rfl⟩
theorem test_decode_setina : decode 0b110001011010 = .ok (.setina 0x5A) := rfl
theorem test_decode_setinb : decode 0b110100000000 = .ok (.setinb 0x00) := rfl
theorem test_decode_setinc : decode 0b111011111111 = .ok (.setinc 0xFF) := rfl
theorem test_decode_reserved :
    decode 0b101100000000 = .error (.noSuchEventKind 0xB00) ∧ decode 0b101111111111 = .error (.noSuchEventKind 0xBFF) ∧
    decode 0b111100000000 = .error (.noInputPinsAtOffset3 0xF00) ∧
    decode 0b111111111111 = .error (.noInputPinsAtOffset3 0xFFF) := ⟨rfl, rfl, rfl, rfl⟩
theorem test_encode_words :
    encode (.wra 0x42) = 0x442 ∧ encode (.modeset 0xB0) = 0x7B0 ∧ encode (.bsr 0x75) = 0x775 ∧
    encode (.ack 3) = 0x903 ∧ encode (.setinc 0x66) = 0xE66 ∧ encode .rdcw = 0x300 := by decide
theorem test_table_word : decodeTableWord 16 0x784 = some (.modeset 0x84) ∧ decodeTableWord 16 0xB00 = none := ⟨rfl, rfl⟩
theorem test_fetched_word_runs : step (State.reset.withFetchWord 16 0x4FF) = exec (.wra 0xFF) State.reset := rfl

/-! ### Operations -/

/-- S7: a read of the reset Port A returns `in[A]`; V4: a Mode 2 read returns 0xFF. -/
theorem test_rda :
    after (exec .rda { State.reset with inp := ⟨0x3C, 0, 0⟩ }) (·.answer) = some ⟨some 0x3C, [], some .ok⟩ ∧
    after (exec .rda { inMode2 with inp := ⟨0x3C, 0, 0⟩ }) (·.answer) = some ⟨some 0xFF, [], some .illegal⟩ := ⟨rfl, rfl⟩

/-- P3 line 9: in Mode 1 Input the live byte is read, not the latched one, and the flags of group A alone clear. -/
theorem test_rda_live :
    let s := { bothInput1 with
      latch := ⟨0x11, 0x22, 0⟩, inp := ⟨0x99, 0x22, 0⟩, ibf := ⟨true, true⟩, intr := ⟨true, true⟩ }
    after (exec .rda s) (fun t => (t.answer, t.ibf, t.intr, t.latch.a)) =
      some (⟨some 0x99, [.ibf .A false, .intr .A false], some .ok⟩, ⟨false, true⟩, ⟨false, true⟩, 0x11) := rfl

/-- V4: B Mode 1 Output reads its latch, B Mode 0 input its pins. -/
theorem test_rdb :
    after (exec .rdb { bothOutput1 with latch := ⟨0, 0x33, 0⟩ }) (·.answer) = some ⟨some 0x33, [], some .warn⟩ ∧
    after (exec .rdb { State.reset with inp := ⟨0, 0x3D, 0⟩ }) (·.answer) = some ⟨some 0x3D, [], some .ok⟩ := ⟨rfl, rfl⟩

/-- V4: `RDC` gives `in[C]`, not what was written. -/
theorem test_rdc :
    after (exec .rdc { allOutput with latch := ⟨0, 0, 0xA5⟩, out := ⟨0, 0, 0xA5⟩, inp := ⟨0, 0, 0x66⟩ }) (·.answer) =
      some ⟨some 0x66, [], some .ok⟩ := rfl

/-- V4: `RDCW` is 0xFF with no outcome. -/
theorem test_rdcw : after (exec .rdcw State.reset) (·.answer) = some ⟨some 0xFF, [], none⟩ := rfl

/-- S7: a suppressed write still changes the latch; V4: with `obf[0]` true (not reachable) a Mode 2 write is suppressed. -/
theorem test_wra_suppressed :
    after (exec (.wra 0xFF) State.reset) (fun t => (t.latch.a, t.out.a, t.answer.diag)) =
      some (0xFF, 0x00, some .illegal) ∧
    after (exec (.wra 0x55) { inMode2 with obf := ⟨true, false⟩ }) (fun t => (t.latch.a, t.out.a, t.answer.diag)) =
      some (0x55, 0x00, some .illegal) := ⟨rfl, rfl⟩

/-- P7 line 5: a Mode 1 Output write after an acknowledge. -/
theorem test_wra_mode1 :
    after (exec (.wra 0xAB) { bothOutput1 with latch := ⟨0xAA, 0, 0⟩, out := ⟨0xAA, 0, 0⟩, obf := ⟨true, false⟩ })
      (fun t => (t.latch.a, t.out.a, t.obf, t.intr, t.answer.events)) =
      some (0xAB, 0xAB, ⟨false, false⟩, ⟨true, false⟩, [.obf .A false 0xAB, .intr .A true]) := rfl

/-- P2 line 7: a write over an unacknowledged byte. -/
theorem test_wrb :
    after (exec (.wrb 0x35) { bothOutput1 with latch := ⟨0, 0x34, 0⟩, out := ⟨0, 0x34, 0⟩, intr := ⟨false, true⟩ })
      (fun t => (t.latch.b, t.out.b, t.obf, t.intr, t.answer.events)) =
      some (0x35, 0x35, ⟨false, false⟩, ⟨false, true⟩, [.obf .B false 0x35, .intr .B true]) := rfl

/-- V4: one input nibble does not mask a Port C write; P4 line 8: both do. -/
theorem test_wrc :
    after (exec (.wrc 0xC3) { allOutput with cuIn := true }) (fun t => (t.latch.c, t.out.c)) = some (0xC3, 0xC3) ∧
    after (exec (.wrc 0x3C) { State.reset with latch := ⟨0, 0, 0x25⟩, out := ⟨0, 0, 0xA5⟩ })
      (fun t => (t.latch.c, t.out.c, t.answer.diag)) = some (0x3C, 0xA5, some .illegal) := ⟨rfl, rfl⟩

/-- V2, rows 0xA6 and 0xFF. -/
theorem test_modeset_decode :
    after (exec (.modeset 0xA6) State.reset) (fun t => (t.modeA, t.modeB, t.aIn, t.bIn, t.cuIn, t.clIn)) =
      some (.mode1Output, .mode1Input, false, true, false, false) ∧
    after (exec (.modeset 0xFF) allOutput) (fun t => (t.modeA, t.modeB, t.aIn, t.bIn, t.cuIn, t.clIn)) =
      some (.mode2, .mode1Input, true, true, true, true) := ⟨rfl, rfl⟩

/-- P7 line 12: the flags are cleared with no event and the strobed byte stays in the latch. -/
theorem test_modeset_clears :
    after (exec (.modeset 0x90) { bothInput1 with latch := ⟨0x5A, 0, 0⟩, ibf := ⟨true, false⟩, intr := ⟨true, false⟩ })
      (fun t => (t.latch.a, t.ibf, t.intr, t.answer)) =
      some (0x5A, ⟨false, false⟩, ⟨false, false⟩, ⟨none, [], some .standard⟩) := rfl

/-- V3: bits of 0xA5 and of 0x00; P4 line 5: the output register does not follow. -/
theorem test_bsr :
    after (exec (.bsr 0x4A) { State.reset with latch := ⟨0, 0, 0xA5⟩ }) (·.latch.c) = some 0x85 ∧
    after (exec (.bsr 0x75) State.reset) (·.latch.c) = some 0x04 ∧
    after (exec (.bsr 0x7E) { allOutput with latch := ⟨0, 0, 0xA5⟩, out := ⟨0, 0, 0xA5⟩ }) (fun t => (t.latch.c, t.out.c)) =
      some (0x25, 0xA5) := by decide

/-- V5: `STB 255` is group B; P3 line 8: a strobe while full is dropped. -/
theorem test_stb :
    after (exec (.stb 255) { bothInput1 with inp := ⟨0x11, 0x22, 0⟩ })
      (fun t => (t.latch, t.ibf, t.intr, t.answer.events)) =
      some (⟨0, 0x22, 0⟩, ⟨false, true⟩, ⟨false, true⟩, [.ibf .B true, .intr .B true]) ∧
    after (exec (.stb 0) { bothInput1 with latch := ⟨0x11, 0, 0⟩, inp := ⟨0x99, 0, 0⟩, ibf := ⟨true, false⟩ })
      (fun t => (t.latch.a, t.answer.events)) = some (0x11, []) := ⟨rfl, rfl⟩

/-- P2 line 8: `ACK 3` is group B; V5: no acknowledge in Mode 1 Input. -/
theorem test_ack :
    after (exec (.ack 3) { bothOutput1 with out := ⟨0, 0x35, 0⟩, intr := ⟨false, true⟩ })
      (fun t => (t.obf, t.intr, t.out.b, t.answer.events)) =
      some (⟨false, true⟩, ⟨false, false⟩, 0x35, [.obf .B true 0xFF, .intr .B false]) ∧
    after (exec (.ack 1) bothInput1) (fun t => (t.obf, t.answer.events)) = some (⟨false, false⟩, []) := ⟨rfl, rfl⟩

/-- V8: a reset with a request pending gives the reset state and no event. -/
theorem test_reset :
    after (exec .reset { bothInput1 with inp := ⟨0x5A, 0, 0⟩, intr := ⟨true, false⟩ }) id = some State.reset := rfl

/-- V7: the input drive changes one input. -/
theorem test_setin :
    after (exec (.setina 0x5A) bothInput1) (fun t => (t.inp, t.latch, t.ibf)) =
      some (⟨0x5A, 0, 0⟩, ⟨0, 0, 0⟩, ⟨false, false⟩) ∧
    after (exec (.setinb 0xFF) State.reset) (·.inp) = some ⟨0, 0xFF, 0⟩ ∧
    after (exec (.setinc 0x0F) State.reset) (·.inp) = some ⟨0, 0, 0x0F⟩ := ⟨rfl, rfl, rfl⟩

/-- 30_encoding.md R65, R66: the trace line of the spec's example; `CONFIG` of the reset byte. -/
theorem test_trace_and_pseudo :
    traceLine .rda ⟨some 0x5A, [.ibf .A false, .intr .A false], some .ok⟩ = "RDA -> 0x5A Ok [IBF(0,0), INTR(0,0)]" ∧
    expand (.config 0b00 true true false true true) = .modeset 0x9B ∧ expand (.setbit 7) = .bsr 0x0F := by decide

/-- 30_encoding.md R50, 10_state.md R27: the wires spell the operations of the table. -/
theorem test_signals :
    decode (signalWord (.busWrite 0b00 0x42)) = .ok (.wra 0x42) ∧ decode (signalWord (.busRead 0b11)) = .ok .rdcw ∧
    decode (signalWord (.stb .B)) = .ok (.stb 1) ∧ decode (signalWord (.pins .C 0x66)) = .ok (.setinc 0x66) :=
  ⟨rfl, rfl, rfl, rfl⟩

/-! ### Witnesses: a state and operands that meet the hypotheses of each statement that has some -/

theorem witness_StepKeepsInvariant :
    Inv (present 0x7B0 State.reset) ∧ step (present 0x7B0 State.reset) = exec (.modeset 0xB0) State.reset := by
  exact ⟨by decide, rfl⟩

theorem witness_ModesAlwaysDecodeTheControlWord :
    ModesDecoded bothInput1 ∧ ∃ t, step (present 0x784 bothInput1) = .next t := ⟨by decide, _, rfl⟩

theorem witness_DecodeOfEncodeIsTheInstruction : (Instr.modeset 0xFF).wf = true ∧ (Instr.bsr 0x00).wf = true := by decide

theorem witness_DecodedInstructionReencodes : decode 0x0FF = .ok .rda ∧ decode 0x775 = .ok (.bsr 0x75) := ⟨rfl, rfl⟩

theorem witness_ReservedWordsAreRefused :
    (0xB00 : OpWord).extractLsb' 8 4 = 0xB#4 ∧ (0xBFF : OpWord).extractLsb' 8 4 = 0xB#4 ∧
    (0xF00 : OpWord).extractLsb' 8 4 = 0xF#4 ∧ (0xFFF : OpWord).extractLsb' 8 4 = 0xF#4 ∧
    (0x7FF : OpWord).getLsbD 11 = false := by decide

theorem witness_StepRunsThePresentedOperation :
    (present 0x442 allOutput).pending = 0x442 :: [] ∧ decode 0x442 = .ok (.wra 0x42) := ⟨rfl, rfl⟩

theorem witness_IdleStepOnlyEmptiesTheAnswer : bothInput1.pending = [] := rfl

theorem witness_RunIsTheFoldOfTheOperations : ∀ i ∈ [Instr.modeset 0xB0, .setina 0x5A, .stb 0, .rda], i.wf = true := by
  decide

/-- The hypothesis of every `DecodesAs` clause, on the last word of each row. -/
theorem witness_DecodesAs :
    (0x0FF : OpWord) &&& 0xF00 = 0x000 ∧ (0x1FF : OpWord) &&& 0xF00 = 0x100 ∧ (0x2FF : OpWord) &&& 0xF00 = 0x200 ∧
    (0x3FF : OpWord) &&& 0xF00 = 0x300 ∧ (0x4FF : OpWord) &&& 0xF00 = 0x400 ∧ (0x5FF : OpWord) &&& 0xF00 = 0x500 ∧
    (0x6FF : OpWord) &&& 0xF00 = 0x600 ∧ (0x7FF : OpWord) &&& 0xF80 = 0x780 ∧ (0x77F : OpWord) &&& 0xF80 = 0x700 ∧
    (0x8FF : OpWord) &&& 0xF00 = 0x800 ∧ (0x9FF : OpWord) &&& 0xF00 = 0x900 ∧ (0xAFF : OpWord) &&& 0xF00 = 0xA00 ∧
    (0xCFF : OpWord) &&& 0xF00 = 0xC00 ∧ (0xDFF : OpWord) &&& 0xF00 = 0xD00 ∧ (0xEFF : OpWord) &&& 0xF00 = 0xE00 := by
  decide

/-- Both forms of a control byte, at the ends of their ranges. -/
theorem witness_ControlByteForms :
    (0x80 : Byte).getLsbD 7 = true ∧ (0xFF : Byte).getLsbD 7 = true ∧
    (0x00 : Byte).getLsbD 7 = false ∧ (0x7F : Byte).getLsbD 7 = false := by decide

/-- Both groups of a raw identifier, and an accepted strobe and an acknowledge of each. -/
theorem witness_GroupForms :
    groupOf 0xFE = .A ∧ groupOf 0xFF = .B ∧
    bothInput1.strobeAccepted .A = true ∧ bothInput1.strobeAccepted .B = true ∧
    bothOutput1.mode .A = .mode1Output ∧ bothOutput1.mode .B = .mode1Output := by decide

/-- Every mode of Port A and of Port B, with both answers of each gate, for the statements by case. -/
theorem witness_PolicyForms :
    State.reset.mode .A = .mode0 ∧ State.reset.isIn .A = true ∧ allOutput.mode .A = .mode0 ∧ allOutput.isIn .A = false ∧
    State.reset.mode .B = .mode0 ∧ State.reset.isIn .B = true ∧ allOutput.mode .B = .mode0 ∧ allOutput.isIn .B = false ∧
    bothInput1.mode .A = .mode1Input ∧ bothInput1.mode .B = .mode1Input ∧
    bothOutput1.mode .A = .mode1Output ∧ bothOutput1.mode .B = .mode1Output ∧
    inMode2.modeA = .mode2 ∧ ({ inMode2 with ibf := ⟨true, false⟩, obf := ⟨true, false⟩ } : State).modeA = .mode2 := by
  decide

theorem witness_Mode0PolicyFollowsTheDirection : State.reset.mode .A = .mode0 ∧ allOutput.mode .B = .mode0 := by decide
theorem witness_Mode1InputPolicy : bothInput1.mode .A = .mode1Input ∧ bothInput1.mode .B = .mode1Input := by decide
theorem witness_Mode1OutputPolicy : bothOutput1.mode .A = .mode1Output ∧ bothOutput1.mode .B = .mode1Output := by decide
theorem witness_Mode2PolicyIsTheGate : inMode2.modeA = .mode2 := rfl
theorem witness_RegisterMapNamesTheOperations : (0x80 : Byte).getLsbD 7 = true ∧ (0x7F : Byte).getLsbD 7 = false := by decide
theorem witness_WriteStoresTheLatchFirst : Port.B ≠ Port.A := by decide

theorem witness_ModesetForgetsAndIsIdempotent :
    (∃ t, exec (.modeset 0xB0) bothOutput1 = .next t) ∧
    bothInput1.latch = bothOutput1.latch ∧ bothInput1.out = bothOutput1.out ∧ bothInput1.inp = bothOutput1.inp ∧
    bothInput1.pending = bothOutput1.pending ∧ bothInput1.modeA ≠ bothOutput1.modeA :=
  ⟨⟨_, rfl⟩, rfl, rfl, rfl, rfl, by decide⟩

theorem witness_BsrIgnoresBitsSixToFour : (0x75 : Byte).extractLsb' 0 4 = (0x05 : Byte).extractLsb' 0 4 := by decide

theorem witness_CpuReadTransition : bothInput1.mode .A = .mode1Input ∧ bothInput1.mode .B = .mode1Input := by decide

theorem witness_StrobeWhileFullIsDropped :
    ({ bothInput1 with ibf := ⟨true, true⟩ } : State).ibf.get (groupOf 0) = true ∧
    ({ bothInput1 with ibf := ⟨true, true⟩ } : State).ibf.get (groupOf 1) = true := by decide

theorem witness_HandshakeInertOutsideMode1 :
    (allOutput.mode .A = .mode0 ∧ clearsFlags (.stb 0) = false ∧ ∃ t, exec (.stb 0) allOutput = .next t) ∧
    (inMode2.mode .A = .mode2 ∧ clearsFlags (.wra 0x55) = false ∧ ∃ t, exec (.wra 0x55) inMode2 = .next t) :=
  ⟨⟨rfl, rfl, _, rfl⟩, rfl, rfl, _, rfl⟩

theorem witness_GroupsAreIndependent :
    addressedGroup (.stb 0) = some .A ∧ addressedGroup (.wrb 0x33) = some .B ∧
    (∃ t, exec (.stb 0) bothInput1 = .next t) ∧
    groupView .A bothInput1 = groupView .A { bothInput1 with modeB := .mode0, latch := ⟨0, 0x77, 0x88⟩ } :=
  ⟨rfl, rfl, ⟨_, rfl⟩, by decide⟩

theorem witness_OnlyPermittedWritesChangeAnOutput :
    after (exec (.wra 0x42) allOutput) (fun t => t.out.get .A) = some 0x42 ∧ allOutput.out.get .A ≠ 0x42 := by decide

theorem witness_LatchesHaveOnlyTheirWriters :
    after (exec (.stb 1) { bothInput1 with inp := ⟨0, 0x22, 0⟩ }) (fun t => t.latch.get .B) = some 0x22 ∧
    after (exec (.bsr 0x05) State.reset) (fun t => t.latch.get .C) = some 0x04 := by decide

theorem witness_InputsHaveOnlyTheirDrivers :
    after (exec (.setinc 0x66) State.reset) (fun t => t.inp.get .C) = some 0x66 ∧ State.reset.inp.get .C ≠ 0x66 := by decide

theorem witness_ConfigurationHasOnlyItsWriters :
    clearsFlags (.bsr 0x05) = false ∧ ∃ t, exec (.bsr 0x05) bothInput1 = .next t := ⟨rfl, _, rfl⟩

/-- The last clause speaks of the other group of a Mode 1 Input read, and of both groups otherwise. -/
theorem witness_ReadsChangeOnlyHandshakeFlags :
    ¬ (Port.A = groupPort .B ∧ bothInput1.mode .B = .mode1Input) ∧
    ¬ (Port.A = groupPort .A ∧ allOutput.mode .A = .mode1Input) := by decide

theorem witness_Mode0OutputRoundTrip :
    (0x80 : Byte).extractLsb' 5 2 = 0b00#2 ∧ (0x80 : Byte).getLsbD 4 = false ∧
    (0x8B : Byte).extractLsb' 5 2 = 0b00#2 ∧ (0x8B : Byte).getLsbD 4 = false := by decide

/-- An accepted strobe of group A, another group's traffic and a suppressed write in between, and the mode kept. -/
theorem witness_HeldStrobedByteIsReadBack :
    let s := { bothInput1 with inp := ⟨0x5A, 0, 0⟩ }
    s.mode (groupOf 0) = .mode1Input ∧ s.ibf.get (groupOf 0) = false ∧
    (∀ i ∈ [Instr.setinb 0x22, .wra 0x77], i ≠ .reset ∧ drivenPort i ≠ some (groupPort (groupOf 0))) ∧
    ∃ s₁ s₂, exec (.stb 0) s = .next s₁ ∧ execAll [.setinb 0x22, .wra 0x77] s₁ = .next s₂ ∧
      s₂.mode (groupOf 0) = .mode1Input := by
  exact ⟨rfl, rfl, by decide, _, _, rfl, rfl, rfl⟩

theorem witness_StrobedOutputCycle :
    bothOutput1.mode (groupOf 0) = .mode1Output ∧ bothOutput1.mode (groupOf 3) = .mode1Output := by decide

theorem witness_Mode2IsADeadEndForInput : Inv inMode2 ∧ inMode2.modeA = .mode2 := by decide

theorem witness_UnreadStateNeverReachesAnAnswer :
    SameReadState State.reset
      { State.reset with latch := ⟨0, 0, 0xFF⟩, cw := 0x80, out := ⟨1, 2, 3⟩, intr := ⟨true, true⟩, obf := ⟨false, true⟩ } :=
  ⟨rfl, rfl, rfl, rfl, rfl, rfl, rfl, rfl, rfl, rfl, rfl⟩

end Sys2Proof.Machine.Tests
end

section
/-! PROOFS. The statements about who writes which field (spec/10_state.md), and the facts they rest on: the configuration
and the flags of a group as views of the state with one rule per state update, what each shared operation does to each
field, and the one inversion of `exec` that every statement goes through. -/

namespace Sys2Proof.Machine

/-! ### The configuration as one view of the state -/

/-- The fields that only `MODESET` and `RESET` write (10_state.md section 4 and R17). -/
structure Configuration where
  cw : Byte
  modeA : Mode
  modeB : ModeB
  aIn : Bool
  bIn : Bool
  cuIn : Bool
  clIn : Bool
  stbActive : GroupBits

/-- The configuration of a state. -/
def State.config (s : State) : Configuration :=
  ⟨s.cw, s.modeA, s.modeB, s.aIn, s.bIn, s.cuIn, s.clIn, s.stbActive⟩

theorem State.config_eq_iff {s t : State} :
    t.config = s.config ↔
      t.cw = s.cw ∧ t.modeA = s.modeA ∧ t.modeB = s.modeB ∧
      t.aIn = s.aIn ∧ t.bIn = s.bIn ∧ t.cuIn = s.cuIn ∧ t.clIn = s.clIn ∧ t.stbActive = s.stbActive := by
  simp only [State.config, Configuration.mk.injEq]

section
variable (s : State)

@[simp] theorem State.beginOp_config : s.beginOp.config = s.config := rfl
@[simp] theorem State.emit_config (e : Event) : (s.emit e).config = s.config := rfl
@[simp] theorem State.giveByte_config (v : Byte) : (s.giveByte v).config = s.config := rfl
@[simp] theorem State.giveDiag_config (d : Diag) : (s.giveDiag d).config = s.config := rfl
@[simp] theorem State.setLatch_config (p : Port) (v : Byte) : (s.setLatch p v).config = s.config := rfl
@[simp] theorem State.setOut_config (p : Port) (v : Byte) : (s.setOut p v).config = s.config := rfl
@[simp] theorem State.setInp_config (p : Port) (v : Byte) : (s.setInp p v).config = s.config := rfl
@[simp] theorem State.strobeFlags_config (g : Group) : (s.strobeFlags g).config = s.config := rfl
@[simp] theorem State.ackFlags_config (g : Group) : (s.ackFlags g).config = s.config := rfl

end

/-! ### The flags of a group as one view of the state -/

/-- The flag triple of one group (10_state.md R16). -/
structure GroupFlags where
  ibf : Bool
  obf : Bool
  intr : Bool

/-- The flag triple of a group in a state. -/
def State.flags (s : State) (g : Group) : GroupFlags := ⟨s.ibf.get g, s.obf.get g, s.intr.get g⟩

/-- Which causes of the table of 10_state.md R16 an operation brings about for one group. -/
structure FlagCauses where
  cleared : Bool := false
  strobed : Bool := false
  read : Bool := false
  written : Bool := false
  acknowledged : Bool := false

/-- The table of 10_state.md R16: the flags after the causes. -/
def GroupFlags.after (f : GroupFlags) (c : FlagCauses) : GroupFlags where
  ibf := !c.cleared && (c.strobed || (f.ibf && !c.read))
  obf := !c.cleared && (c.acknowledged || (f.obf && !c.written))
  intr := !c.cleared && (c.strobed || c.written || (f.intr && !(c.read || c.acknowledged)))

/-- The causes that an operation is for a group, in a state. -/
def flagCauses (i : Instr) (s : State) (g : Group) : FlagCauses where
  cleared := clearsFlags i
  strobed := performs .strobe g i s
  read := performs .cpuRead g i s
  written := performs .cpuWrite g i s
  acknowledged := performs .acknowledge g i s

@[simp] theorem GroupFlags.after_no_cause (f : GroupFlags) : f.after {} = f := by
  simp [GroupFlags.after]

section
variable (s : State) (g : Group)

@[simp] theorem State.beginOp_flags : s.beginOp.flags g = s.flags g := rfl
@[simp] theorem State.emit_flags (e : Event) : (s.emit e).flags g = s.flags g := rfl
@[simp] theorem State.giveByte_flags (v : Byte) : (s.giveByte v).flags g = s.flags g := rfl
@[simp] theorem State.giveDiag_flags (d : Diag) : (s.giveDiag d).flags g = s.flags g := rfl
@[simp] theorem State.setLatch_flags (p : Port) (v : Byte) : (s.setLatch p v).flags g = s.flags g := rfl
@[simp] theorem State.setOut_flags (p : Port) (v : Byte) : (s.setOut p v).flags g = s.flags g := rfl
@[simp] theorem State.setInp_flags (p : Port) (v : Byte) : (s.setInp p v).flags g = s.flags g := rfl

end

section
variable (s : State) (g k : Group)

@[simp] theorem State.strobeFlags_flags :
    (s.strobeFlags k).flags g = (s.flags g).after { strobed := decide (k = g) } := by
  cases k <;> cases g <;> simp [State.flags, GroupFlags.after, GroupBits.get_set]

@[simp] theorem State.cpuReadFlags_flags :
    (s.cpuReadFlags k).flags g = (s.flags g).after { read := decide (k = g) } := by
  cases k <;> cases g <;> simp [State.flags, GroupFlags.after, GroupBits.get_set]

@[simp] theorem State.cpuWriteFlags_flags :
    (s.cpuWriteFlags k).flags g = (s.flags g).after { written := decide (k = g) } := by
  cases k <;> cases g <;> simp [State.flags, GroupFlags.after, GroupBits.get_set]

@[simp] theorem State.ackFlags_flags :
    (s.ackFlags k).flags g = (s.flags g).after { acknowledged := decide (k = g) } := by
  cases k <;> cases g <;> simp [State.flags, GroupFlags.after, GroupBits.get_set]

end

/-! ### The handshake transitions -/

@[simp] theorem State.beginOp_strobeAccepted (s : State) (g : Group) :
    s.beginOp.strobeAccepted g = s.strobeAccepted g := by
  simp only [State.strobeAccepted, State.beginOp_mode, State.beginOp_ibf]

@[simp] theorem strobe_config (g : Group) (s : State) : (strobe g s).config = s.config := by
  unfold strobe; split <;> simp

@[simp] theorem strobe_out (g : Group) (s : State) : (strobe g s).out = s.out := by
  unfold strobe; split <;> simp

theorem strobe_latch (g : Group) (s : State) :
    (strobe g s).latch =
      if s.strobeAccepted g = true then s.latch.set (groupPort g) (s.inp.get (groupPort g)) else s.latch := by
  unfold strobe; split <;> simp

theorem strobe_flags (k g : Group) (s : State) :
    (strobe k s).flags g = (s.flags g).after { strobed := decide (k = g) && s.strobeAccepted g } := by
  rcases eq_or_ne k g with rfl | hkg
  · unfold strobe; split <;> simp [*]
  · unfold strobe; split <;> simp [hkg]

theorem cpuRead_flags (k g : Group) (s : State) :
    (cpuRead k s).flags g = (s.flags g).after { read := decide (k = g) } := by
  simp [cpuRead]

theorem cpuWrite_flags (k g : Group) (s : State) :
    (cpuWrite k s).flags g = (s.flags g).after { written := decide (k = g) } := by
  simp [cpuWrite]

@[simp] theorem acknowledge_config (g : Group) (s : State) : (acknowledge g s).config = s.config := by
  unfold acknowledge; split <;> simp

@[simp] theorem acknowledge_out (g : Group) (s : State) : (acknowledge g s).out = s.out := by
  unfold acknowledge; split <;> simp

@[simp] theorem acknowledge_latch (g : Group) (s : State) : (acknowledge g s).latch = s.latch := by
  unfold acknowledge; split <;> simp

theorem acknowledge_flags (k g : Group) (s : State) :
    (acknowledge k s).flags g =
      (s.flags g).after { acknowledged := decide (k = g) && decide (s.mode g = .mode1Output) } := by
  rcases eq_or_ne k g with rfl | hkg
  · unfold acknowledge; split <;> simp [*]
  · unfold acknowledge; split <;> simp [hkg]

/-! ### The access policy -/

@[simp] theorem groupPort_eq_groupPort_iff {k g : Group} : groupPort k = groupPort g ↔ k = g :=
  ⟨groupPort_injective, fun h => h ▸ rfl⟩

/-- A port is Port C or the port of a group. -/
theorem port_eq_c_or_groupPort (p : Port) : p = .C ∨ ∃ g, p = groupPort g := by
  cases p with
  | A => exact .inr ⟨.A, rfl⟩
  | B => exact .inr ⟨.B, rfl⟩
  | C => exact .inl rfl

theorem policy_groupPort (g : Group) (op : Access) (s : State) :
    policy (groupPort g) op s = groupPolicy g op s := by
  cases g <;> rfl

@[simp] theorem policy_config (p : Port) (op : Access) (s : State) : (policy p op s).2.config = s.config := by
  obtain ⟨-, -, hcw, hma, hmb, ha, hb, hcu, hcl, hstb, -⟩ := policy_frame p op s
  exact State.config_eq_iff.2 ⟨hcw, hma, hmb, ha, hb, hcu, hcl, hstb⟩

@[simp] theorem policy_latch (p : Port) (op : Access) (s : State) : (policy p op s).2.latch = s.latch :=
  (policy_frame p op s).1

/-- A group's own port makes the group's transition, in the one mode that has it. -/
theorem groupPolicy_flags (k : Group) (op : Access) (s : State) (g : Group) :
    (groupPolicy k op s).2.flags g =
      (s.flags g).after
        { read := decide (op = .read ∧ k = g ∧ s.mode g = .mode1Input)
          written := decide (op = .write ∧ k = g ∧ s.mode g = .mode1Output) } := by
  rcases eq_or_ne k g with rfl | hkg
  · unfold groupPolicy
    cases hm : s.mode k <;> cases op <;> simp [cpuRead_flags, cpuWrite_flags]
  · unfold groupPolicy
    cases hm : s.mode k <;> cases op <;> simp [hkg, cpuRead_flags, cpuWrite_flags]

theorem policy_flags (p : Port) (op : Access) (s : State) (g : Group) :
    (policy p op s).2.flags g =
      (s.flags g).after
        { read := decide (op = .read ∧ p = groupPort g ∧ s.mode g = .mode1Input)
          written := decide (op = .write ∧ p = groupPort g ∧ s.mode g = .mode1Output) } := by
  rcases port_eq_c_or_groupPort p with rfl | ⟨k, rfl⟩
  · simp [policy, (groupPort_ne_c g).symm]
  · simp only [policy_groupPort, groupPolicy_flags, groupPort_eq_groupPort_iff]

/-- The policy judges a write `Ok` or `Illegal`; `Warn` is an outcome of reads. -/
theorem policy_write_outcome (p : Port) (s : State) :
    (policy p .write s).1 = .ok ∨ (policy p .write s).1 = .illegal := by
  rcases port_eq_c_or_groupPort p with rfl | ⟨g, rfl⟩
  · simp only [policy, portCOutcome]
    split <;> simp
  · rw [policy_groupPort]
    unfold groupPolicy
    cases s.mode g with
    | mode0 => cases s.isIn g <;> simp [mode0Outcome, Config.mode0DirectionGated]
    | mode1Input => exact .inr rfl
    | mode1Output => exact .inl rfl
    | mode2 => cases s.obf.get .A <;> simp [mode2Outcome]

/-- Only an `Ok` write reaches the output register. -/
theorem policy_write_ok_of_transfers {p : Port} {s : State}
    (h : transfersOnWrite (policy p .write s).1 = true) : (policy p .write s).1 = .ok := by
  rcases policy_write_outcome p s with hok | hill
  · exact hok
  · rw [hill] at h; cases h

/-! ### The port accesses -/

@[simp] theorem readPort_config (p : Port) (s : State) : (readPort p s).config = s.config := by
  simp [readPort]

@[simp] theorem readPort_out (p : Port) (s : State) : (readPort p s).out = s.out := by
  simp [readPort, policy_read_out]

@[simp] theorem readPort_latch (p : Port) (s : State) : (readPort p s).latch = s.latch := by
  simp [readPort]

theorem readPort_flags (p : Port) (s : State) (g : Group) :
    (readPort p s).flags g =
      (s.flags g).after { read := decide (p = groupPort g ∧ s.mode g = .mode1Input) } := by
  simp [readPort, policy_flags]

@[simp] theorem writePort_config (p : Port) (v : Byte) (s : State) : (writePort p v s).config = s.config := by
  simp only [writePort]; split <;> simp

theorem writePort_flags (p : Port) (v : Byte) (s : State) (g : Group) :
    (writePort p v s).flags g =
      (s.flags g).after { written := decide (p = groupPort g ∧ s.mode g = .mode1Output) } := by
  simp only [writePort]; split <;> simp [policy_flags]

/-- The CPU-write transition copies the latch that the same write has just filled, so the written byte is all that can
reach the output register. -/
theorem writePort_out (p : Port) (v : Byte) (s : State) :
    (writePort p v s).out =
      if transfersOnWrite (policy p .write (s.setLatch p v)).1 = true then s.out.set p v else s.out := by
  rcases policy_cases p .write (s.setLatch p v) with h | ⟨g, -, hop, -, -⟩ | ⟨g, rfl, -, -, h⟩
  · simp only [writePort, h]; split <;> simp
  · cases hop
  · simp [writePort, h, cpuWrite_eq, transfersOnWrite]

theorem writePort_diag (p : Port) (v : Byte) (s : State) :
    (writePort p v s).answer.diag = some (outcomeDiag (policy p .write (s.setLatch p v)).1) := by
  simp only [writePort]; split <;> rfl

/-! ### The control register, the input drive and `RESET` -/

@[simp] theorem readControl_config (s : State) : (readControl s).config = s.config := rfl
@[simp] theorem readControl_out (s : State) : (readControl s).out = s.out := rfl
@[simp] theorem readControl_latch (s : State) : (readControl s).latch = s.latch := rfl
@[simp] theorem readControl_flags (s : State) (g : Group) : (readControl s).flags g = s.flags g := rfl

@[simp] theorem driveInput_config (p : Port) (v : Byte) (s : State) : (driveInput p v s).config = s.config := rfl
@[simp] theorem driveInput_out (p : Port) (v : Byte) (s : State) : (driveInput p v s).out = s.out := rfl
@[simp] theorem driveInput_latch (p : Port) (v : Byte) (s : State) : (driveInput p v s).latch = s.latch := rfl
@[simp] theorem driveInput_flags (p : Port) (v : Byte) (s : State) (g : Group) :
    (driveInput p v s).flags g = s.flags g := rfl

@[simp] theorem applyBsr_config (v : Byte) (s : State) : (applyBsr v s).config = s.config := rfl
@[simp] theorem applyBsr_out (v : Byte) (s : State) : (applyBsr v s).out = s.out := rfl
@[simp] theorem applyBsr_flags (v : Byte) (s : State) (g : Group) : (applyBsr v s).flags g = s.flags g := rfl
theorem applyBsr_latch (v : Byte) (s : State) :
    (applyBsr v s).latch = s.latch.set .C (withBit s.latch.c (bsrBitNumber v) (bsrSet v)) := rfl

@[simp] theorem applyStandard_out (v : Byte) (s : State) : (applyStandard v s).out = s.out := rfl
@[simp] theorem applyStandard_latch (v : Byte) (s : State) : (applyStandard v s).latch = s.latch := rfl

theorem applyStandard_flags (v : Byte) (s : State) (g : Group) (c : FlagCauses) :
    (applyStandard v s).flags g = (s.flags g).after { c with cleared := true } := by
  cases g <;> simp [applyStandard_eq, State.flags, GroupFlags.after, GroupBits.get]

theorem resetDevice_flags (s : State) (g : Group) (c : FlagCauses) :
    (resetDevice s).flags g = (s.flags g).after { c with cleared := true } := by
  cases g <;> simp [resetDevice, State.reset, State.flags, GroupFlags.after, GroupBits.get]

/-! ### What one operation can do -/

/-- The nine kinds of operation, each with the shared operation that is its meaning (43_port_access.md section 4). -/
inductive Effect : Instr → State → State → Prop
  | read (p : Port) (s : State) : Effect (readInstr p) s (readPort p s.beginOp)
  | readControl (s : State) : Effect .rdcw s (readControl s.beginOp)
  | write (p : Port) (v : Byte) (s : State) : Effect (writeInstr p v) s (writePort p v s.beginOp)
  | standard (v : Byte) (s : State) : Effect (.modeset v) s (applyStandard v s.beginOp)
  | bsr (v : Byte) (s : State) : Effect (.bsr v) s (applyBsr v s.beginOp)
  | strobe (x : Byte) (s : State) : Effect (.stb x) s (strobe (groupOf x) s.beginOp)
  | acknowledge (x : Byte) (s : State) : Effect (.ack x) s (acknowledge (groupOf x) s.beginOp)
  | reset (s : State) : Effect .reset s (resetDevice s.beginOp)
  | drive (p : Port) (v : Byte) (s : State) : Effect (driveInstr p v) s (driveInput p v s.beginOp)

/-- Every operation answers a next state, and it is the effect of the operation's kind. -/
theorem exec_eq_next (i : Instr) (s : State) : ∃ t, exec i s = .next t ∧ Effect i s t := by
  cases i with
  | rda => exact ⟨_, rfl, .read .A s⟩
  | rdb => exact ⟨_, rfl, .read .B s⟩
  | rdc => exact ⟨_, rfl, .read .C s⟩
  | rdcw => exact ⟨_, rfl, .readControl s⟩
  | wra v => exact ⟨_, rfl, .write .A v s⟩
  | wrb v => exact ⟨_, rfl, .write .B v s⟩
  | wrc v => exact ⟨_, rfl, .write .C v s⟩
  | modeset v => exact ⟨_, rfl, .standard v s⟩
  | bsr v => exact ⟨_, rfl, .bsr v s⟩
  | stb x => exact ⟨_, rfl, .strobe x s⟩
  | ack x => exact ⟨_, rfl, .acknowledge x s⟩
  | reset => exact ⟨_, rfl, .reset s⟩
  | setina v => exact ⟨_, rfl, .drive .A v s⟩
  | setinb v => exact ⟨_, rfl, .drive .B v s⟩
  | setinc v => exact ⟨_, rfl, .drive .C v s⟩

theorem effect_of_exec {i : Instr} {s t : State} (h : exec i s = .next t) : Effect i s t := by
  obtain ⟨t', ht', he⟩ := exec_eq_next i s
  cases h.symm.trans ht'
  exact he

/-! ### The causes of each kind of operation -/

theorem performs_eq (k : Trigger) (g : Group) (i : Instr) (s : State) :
    performs k g i s = (decide (triggerOf i = some (k, g)) && triggerActs (s.mode g) (s.ibf.get g) k) := by
  rw [performs, beq_eq_decide]

section
variable (s : State) (g : Group)

theorem flagCauses_readInstr (p : Port) :
    flagCauses (readInstr p) s g = { read := decide (p = groupPort g ∧ s.mode g = .mode1Input) } := by
  cases p <;> cases g <;> simp [flagCauses, performs_eq, readInstr, triggerOf, triggerActs, clearsFlags, groupPort,
    beq_eq_decide]

theorem flagCauses_writeInstr (p : Port) (v : Byte) :
    flagCauses (writeInstr p v) s g = { written := decide (p = groupPort g ∧ s.mode g = .mode1Output) } := by
  cases p <;> cases g <;> simp [flagCauses, performs_eq, writeInstr, triggerOf, triggerActs, clearsFlags, groupPort,
    beq_eq_decide]

theorem flagCauses_driveInstr (p : Port) (v : Byte) : flagCauses (driveInstr p v) s g = {} := by
  cases p <;> rfl

theorem performs_strobe_stb (x : Byte) :
    performs .strobe g (.stb x) s = (decide (groupOf x = g) && s.strobeAccepted g) := by
  by_cases hxg : groupOf x = g
  · simp [performs_eq, triggerOf, triggerActs, State.strobeAccepted, hxg, beq_eq_decide]
  · simp [performs_eq, triggerOf, hxg]

theorem flagCauses_stb (x : Byte) :
    flagCauses (.stb x) s g = { strobed := decide (groupOf x = g) && s.strobeAccepted g } := by
  rw [flagCauses, performs_strobe_stb]
  simp [performs_eq, triggerOf, clearsFlags]

theorem flagCauses_ack (x : Byte) :
    flagCauses (.ack x) s g =
      { acknowledged := decide (groupOf x = g) && decide (s.mode g = .mode1Output) } := by
  simp [flagCauses, performs_eq, triggerOf, triggerActs, clearsFlags, beq_eq_decide]

end

/-! ### What `exec` does to the configuration and to the flags -/

/-- An operation that is neither `MODESET` nor `RESET` keeps the configuration. -/
theorem exec_config {i : Instr} {s t : State} (h : exec i s = .next t) (hc : clearsFlags i = false) :
    t.config = s.config := by
  cases effect_of_exec h with
  | read | readControl | write | bsr | strobe | acknowledge | drive => simp
  | standard | reset => cases hc

/-- Every operation changes a group's flags by the table of 10_state.md R16 and its own causes. -/
theorem exec_flags {i : Instr} {s t : State} (h : exec i s = .next t) (g : Group) :
    t.flags g = (s.flags g).after (flagCauses i s g) := by
  cases effect_of_exec h with
  | read p => simp [readPort_flags, flagCauses_readInstr]
  | write p v => simp [writePort_flags, flagCauses_writeInstr]
  | strobe x => simp [strobe_flags, flagCauses_stb]
  | acknowledge x => simp [acknowledge_flags, flagCauses_ack]
  | drive p v => simp [flagCauses_driveInstr]
  | readControl => simp [show flagCauses .rdcw s g = {} from rfl]
  | bsr v => simp [show flagCauses (.bsr v) s g = {} from rfl]
  | standard v => exact applyStandard_flags v s.beginOp g (flagCauses (.modeset v) s g)
  | reset => exact resetDevice_flags s.beginOp g (flagCauses .reset s g)

/-! ### Modes and directions are the decode of the control word -/

/-- `MA` is bit 6 in front of bit 5. -/
theorem controlMA_eq_append (v : Byte) :
    controlMA v = BitVec.ofBool (v.getLsbD 6) ++ BitVec.ofBool (v.getLsbD 5) := by
  apply BitVec.eq_of_getLsbD_eq
  intro k hk
  simp only [controlMA, BitVec.getLsbD_extractLsb', BitVec.getLsbD_append, BitVec.getLsbD_ofBool]
  interval_cases k <;> simp

/-- 30_encoding.md R55, from the bits of the byte one at a time. -/
theorem decodeModeA_eq_bits (v : Byte) :
    decodeModeA v =
      match v.getLsbD 6, v.getLsbD 5, v.getLsbD 4 with
      | false, false, _ => .mode0
      | false, true, true => .mode1Input
      | false, true, false => .mode1Output
      | true, _, _ => .mode2 := by
  unfold decodeModeA controlDA
  rw [controlMA_eq_append]
  generalize v.getLsbD 6 = MA1, v.getLsbD 5 = MA0, v.getLsbD 4 = DA
  cases MA1 <;> cases MA0 <;> cases DA <;> rfl

/-- 30_encoding.md R56, from the bits of the byte one at a time. -/
theorem decodeModeB_eq_bits (v : Byte) :
    decodeModeB v =
      match v.getLsbD 2, v.getLsbD 1 with
      | false, _ => .mode0
      | true, true => .mode1Input
      | true, false => .mode1Output := by
  unfold decodeModeB controlMB controlDB
  generalize v.getLsbD 2 = MB, v.getLsbD 1 = DB
  cases MB <;> cases DB <;> rfl

theorem modesDecoded_of_config_eq {s t : State} (h : t.config = s.config) (hs : ModesDecoded s) : ModesDecoded t := by
  obtain ⟨hcw, hma, hmb, ha, hb, hcu, hcl, -⟩ := State.config_eq_iff.1 h
  simpa only [ModesDecoded, hcw, hma, hmb, ha, hb, hcu, hcl] using hs

theorem modesDecoded_applyStandard (v : Byte) (s : State) : ModesDecoded (applyStandard v s) :=
  ⟨rfl, rfl, rfl, rfl, rfl, rfl⟩

theorem modesDecoded_reset : ModesDecoded State.reset := by decide

theorem exec_keeps_modesDecoded {i : Instr} {s t : State} (h : exec i s = .next t) (hs : ModesDecoded s) :
    ModesDecoded t := by
  cases hc : clearsFlags i with
  | false => exact modesDecoded_of_config_eq (exec_config h hc) hs
  | true =>
    cases effect_of_exec h with
    | standard v => exact modesDecoded_applyStandard v s.beginOp
    | reset => exact modesDecoded_of_config_eq rfl modesDecoded_reset
    | read p | write p | drive p => cases p <;> cases hc
    | readControl | bsr | strobe | acknowledge => cases hc

theorem step_keeps_modesDecoded {s t : State} (h : step s = .next t) (hs : ModesDecoded s) : ModesDecoded t := by
  rcases step_cases h with ⟨-, rfl⟩ | ⟨w, rest, i, -, -, hi⟩
  · exact modesDecoded_of_config_eq (State.beginOp_config s) hs
  · exact exec_keeps_modesDecoded hi hs

/-! ### The statements -/

/-- Settles O5: the decode holds at reset, `MODESET` writes it, and no other operation touches the configuration. -/
theorem modesAlwaysDecodeTheControlWord : Obligations.ModesAlwaysDecodeTheControlWord := by
  unfold Obligations.ModesAlwaysDecodeTheControlWord
  intro decoded
  have decoded_iff : ∀ s, decoded s ↔ ModesDecoded s := fun s =>
    .symm (and_congr (Eq.congr_right (decodeModeA_eq_bits s.cw))
      (and_congr (Eq.congr_right (decodeModeB_eq_bits s.cw)) Iff.rfl))
  simp only [decoded_iff]
  exact ⟨modesDecoded_reset, fun s t hs h => step_keeps_modesDecoded h hs⟩

/-- Settles O38: bit 7 chooses between `MODESET`, which touches no port data, and `BSR`, which writes one latch bit. -/
theorem controlWriteChangesOneOfTwoThings : Obligations.ControlWriteChangesOneOfTwoThings := by
  unfold Obligations.ControlWriteChangesOneOfTwoThings
  intro v s
  cases h : v.getLsbD 7 with
  | true =>
    rw [decodeControl_of_standard h]
    refine ⟨_, rfl, (if_pos rfl).mpr ?_⟩
    exact ⟨rfl, rfl, rfl, rfl, rfl, rfl, rfl, rfl, rfl, rfl⟩
  | false =>
    rw [decodeControl_of_bsr h]
    refine ⟨_, rfl, (if_neg Bool.false_ne_true).mpr ?_⟩
    exact ⟨rfl, rfl, rfl, rfl, rfl, rfl, rfl, rfl, rfl, rfl, rfl, rfl, rfl, rfl, rfl,
      fun k hk => getLsbD_withBit s.latch.c (bsrBitNumber v) k (bsrSet v) hk⟩

/-- Settles O45: the three equations are the three fields of the table after the operation's causes. -/
theorem flagsHaveOnlyTheirCauses : Obligations.FlagsHaveOnlyTheirCauses := by
  unfold Obligations.FlagsHaveOnlyTheirCauses
  intro i s g
  obtain ⟨t, h, -⟩ := exec_eq_next i s
  have hflags := exec_flags h g
  exact ⟨t, h, congrArg GroupFlags.ibf hflags, congrArg GroupFlags.obf hflags, congrArg GroupFlags.intr hflags⟩

/-- Settles O49: of all operations only `RESET` and a bus write reach an output register. -/
theorem onlyPermittedWritesChangeAnOutput : Obligations.OnlyPermittedWritesChangeAnOutput := by
  unfold Obligations.OnlyPermittedWritesChangeAnOutput
  intro i s t p h hne
  cases effect_of_exec h with
  | reset => exact .inl rfl
  | write q v =>
    have hout := writePort_out q v s.beginOp
    split at hout
    case isFalse => exact absurd (by rw [hout]; rfl) hne
    case isTrue transfers =>
      obtain rfl : p = q := by
        by_contra hpq
        exact hne (by rw [hout, PortBytes.get_set_ne _ _ hpq]; rfl)
      refine .inr ⟨v, rfl, ?_, ?_⟩
      · rw [hout, PortBytes.get_set_same]
      · rw [writePort_diag, policy_write_ok_of_transfers transfers]; rfl
  | read | readControl | standard | bsr | strobe | acknowledge | drive => exact absurd (by simp) hne

/-- Settles O50: the bus write, the accepted strobe and `BSR` each set one element of the latches. -/
theorem latchesHaveOnlyTheirWriters : Obligations.LatchesHaveOnlyTheirWriters := by
  unfold Obligations.LatchesHaveOnlyTheirWriters
  intro i s t p h hne
  have eq_of_latch_set {q : Port} {v : Byte} (hl : t.latch = s.latch.set q v) : p = q := by
    by_contra hpq
    exact hne (by rw [hl, PortBytes.get_set_ne _ _ hpq])
  cases effect_of_exec h with
  | reset => exact .inl rfl
  | write q v =>
    have hl := writePort_latch q v s.beginOp
    obtain rfl := eq_of_latch_set hl
    exact .inr (.inl ⟨v, rfl, by rw [hl, PortBytes.get_set_same]⟩)
  | strobe x =>
    have hl := strobe_latch (groupOf x) s.beginOp
    split at hl
    case isFalse => exact absurd (by rw [hl]; rfl) hne
    case isTrue accepted =>
      obtain rfl := eq_of_latch_set hl
      refine .inr (.inr (.inl ⟨groupOf x, rfl, ?_, ?_⟩))
      · simpa [performs_strobe_stb] using accepted
      · rw [hl, PortBytes.get_set_same]; rfl
  | bsr v => exact .inr (.inr (.inr ⟨eq_of_latch_set (applyBsr_latch v s.beginOp), v, rfl⟩))
  | read | readControl | standard | acknowledge | drive => exact absurd (by simp) hne

/-- Settles O52: the configuration as a view of the state is kept by every other operation. -/
theorem configurationHasOnlyItsWriters : Obligations.ConfigurationHasOnlyItsWriters := by
  unfold Obligations.ConfigurationHasOnlyItsWriters
  intro i s t h hc
  exact State.config_eq_iff.1 (exec_config h hc)

/-- Settles O1: `RESET` takes every field of the device from `State.reset`. -/
theorem resetGivesEveryField : Obligations.ResetGivesEveryField := by
  unfold Obligations.ResetGivesEveryField
  intro s
  have h : exec .reset s = .next (resetDevice s.beginOp) := rfl
  exact ⟨_, h, rfl, rfl, rfl, rfl, rfl, rfl, rfl, rfl, rfl, rfl, rfl, rfl, rfl, rfl⟩

end Sys2Proof.Machine
end

section
/-! PROOFS. The statements about the register map and the stream of presented operations (spec/20_memory.md), and the
facts they rest on: the word of an operation decodes to it, and no operation reads or writes the words that wait. -/

namespace Sys2Proof

/-! ### The word of an operation -/

/-- The decoder undoes the encoder; only the two control formats need that the operand is one the encoding admits. -/
theorem decode_encode {i : Instr} (h : i.wf = true) : decode (encode i) = .ok i := by
  cases i <;>
    simp only [decode, encode, opWord_bit11, opWord_bit10, opWord_bit9, opWord_bit8, opData_opWord]
  case modeset v => exact congrArg Except.ok (decodeControl_of_standard h)
  case bsr v => exact congrArg Except.ok (decodeControl_of_bsr (Bool.not_eq_eq_eq_not.mp h))
  all_goals rfl

end Sys2Proof

namespace Sys2Proof.Machine

/-! ### The register map -/

theorem memRead_of_portAt {i : Nat} {p : Port} (h : portAt i = some p) (s : State) :
    memRead i s = readPort p s.beginOp := by
  simp only [memRead, h]

theorem memWrite_of_portAt {i : Nat} {p : Port} (h : portAt i = some p) (v : Byte) (s : State) :
    memWrite i v s = writePort p v s.beginOp := by
  simp only [memWrite, h]

theorem memRead_three (s : State) : memRead 3 s = readControl s.beginOp := rfl

theorem memWrite_three (v : Byte) (s : State) : memWrite 3 v s = controlWrite v s.beginOp := rfl

theorem exec_readInstr (p : Port) (s : State) : exec (readInstr p) s = .next (readPort p s.beginOp) := by
  cases p <;> rfl

theorem exec_writeInstr (p : Port) (v : Byte) (s : State) :
    exec (writeInstr p v) s = .next (writePort p v s.beginOp) := by
  cases p <;> rfl

theorem exec_driveInstr (p : Port) (v : Byte) (s : State) :
    exec (driveInstr p v) s = .next (driveInput p v s.beginOp) := by
  cases p <;> rfl

theorem exec_readInstr_eq_memRead {i : Nat} {p : Port} (h : portAt i = some p) (s : State) :
    exec (readInstr p) s = .next (memRead i s) := by
  rw [exec_readInstr, memRead_of_portAt h]

theorem exec_writeInstr_eq_memWrite {i : Nat} {p : Port} (h : portAt i = some p) (v : Byte) (s : State) :
    exec (writeInstr p v) s = .next (memWrite i v s) := by
  rw [exec_writeInstr, memWrite_of_portAt h]

/-- The control register's write is the operation its byte spells (40_control_decoder.md R70). -/
theorem exec_decodeControl_eq_memWrite (v : Byte) (s : State) :
    exec (decodeControl v) s = .next (memWrite 3 v s) := by
  rw [memWrite_three]
  cases h : v.getLsbD 7 with
  | true => simp only [decodeControl_of_standard h, controlWrite, h, if_true, exec, execModeset]
  | false => simp only [decodeControl_of_bsr h, controlWrite, h, Bool.false_eq_true, if_false, exec, execBsr]

/-! ### The stream of presented operations is read and written by no operation -/

/-- The state with other words waiting in the stream. -/
def State.withPending (s : State) (ps : List OpWord) : State := { s with pending := ps }

section
variable (s : State) (ps : List OpWord)

theorem strobe_withPending (g : Group) : strobe g (s.withPending ps) = (strobe g s).withPending ps := by
  rw [strobe, strobe, apply_ite (State.withPending · ps)]; rfl

theorem acknowledge_withPending (g : Group) :
    acknowledge g (s.withPending ps) = (acknowledge g s).withPending ps := by
  rw [acknowledge, acknowledge, apply_ite (State.withPending · ps)]; rfl

theorem groupPolicy_withPending (g : Group) (op : Access) :
    groupPolicy g op (s.withPending ps) =
      ((groupPolicy g op s).1, (groupPolicy g op s).2.withPending ps) := by
  have hmode : (s.withPending ps).mode g = s.mode g := rfl
  unfold groupPolicy
  rw [hmode]
  cases s.mode g <;> cases op <;> rfl

theorem policy_withPending (p : Port) (op : Access) :
    policy p op (s.withPending ps) = ((policy p op s).1, (policy p op s).2.withPending ps) := by
  rcases port_eq_c_or_groupPort p with rfl | ⟨g, rfl⟩
  · rfl
  · simp only [policy_groupPort, groupPolicy_withPending]

theorem readPort_withPending (p : Port) : readPort p (s.withPending ps) = (readPort p s).withPending ps := by
  simp only [readPort, policy_withPending]; rfl

theorem writePort_withPending (p : Port) (v : Byte) :
    writePort p v (s.withPending ps) = (writePort p v s).withPending ps := by
  have hlatch : (s.withPending ps).setLatch p v = (s.setLatch p v).withPending ps := rfl
  simp only [writePort, hlatch, policy_withPending]
  split <;> rfl

end

/-- An operation is its effect on the state, and has no other (the converse of `effect_of_exec`). -/
theorem exec_of_effect {i : Instr} {s t : State} (h : Effect i s t) : exec i s = .next t := by
  cases h with
  | read p => exact exec_readInstr p s
  | write p v => exact exec_writeInstr p v s
  | drive p v => exact exec_driveInstr p v s
  | readControl | standard | bsr | strobe | acknowledge | reset => rfl

/-- What an operation does is the same whatever words wait after it, and it leaves them waiting. -/
theorem exec_withPending {i : Instr} {s t : State} (h : exec i s = .next t) (ps : List OpWord) :
    exec i (s.withPending ps) = .next (t.withPending ps) := by
  apply exec_of_effect
  cases effect_of_exec h with
  | read p => rw [← readPort_withPending]; exact .read p (s.withPending ps)
  | write p v => rw [← writePort_withPending]; exact .write p v (s.withPending ps)
  | strobe x => rw [← strobe_withPending]; exact .strobe x (s.withPending ps)
  | acknowledge x => rw [← acknowledge_withPending]; exact .acknowledge x (s.withPending ps)
  | readControl => exact .readControl (s.withPending ps)
  | standard v => exact .standard v (s.withPending ps)
  | bsr v => exact .bsr v (s.withPending ps)
  | reset => exact .reset (s.withPending ps)
  | drive p v => exact .drive p v (s.withPending ps)

/-! ### Steps and runs over presented operations -/

theorem step_of_decode {s : State} {w : OpWord} {rest : List OpWord} {i : Instr} (hp : s.pending = w :: rest)
    (hd : decode w = .ok i) : step s = exec i (s.withPending rest) := by
  rw [step_of_next_word hp, hd]; rfl

theorem step_of_encode {i : Instr} (h : i.wf = true) (ps : List OpWord) (s : State) :
    step (s.withPending (encode i :: ps)) = exec i (s.withPending ps) :=
  step_of_decode rfl (decode_encode h)

/-- A run over the words of well-formed operations is the fold of their meanings (10_state.md R23): each step takes the
oldest word, and the words behind it play no part in what it does. -/
theorem core_run_presented (is : List Instr) (rest : List OpWord) (s : State) (hwf : ∀ i ∈ is, i.wf = true) :
    Host.Core.run Sys2Proof.core is.length (s.withPending (is.map encode ++ rest)) =
      execAll is (s.withPending rest) := by
  induction is generalizing s with
  | nil => rfl
  | cons i is ih =>
    obtain ⟨hi, his⟩ := List.forall_mem_cons.mp hwf
    obtain ⟨t, ht, -⟩ := exec_eq_next i s
    have hstep : step (s.withPending ((i :: is).map encode ++ rest)) =
        .next (t.withPending (is.map encode ++ rest)) :=
      (step_of_encode hi _ s).trans (exec_withPending ht _)
    have hfold : execAll (i :: is) (s.withPending rest) = execAll is (t.withPending rest) :=
      execAll_cons_of_next (exec_withPending ht rest)
    rw [List.length_cons, core_run_succ hstep, hfold]
    exact ih t his

/-! ### The statements -/

/-- Settles O14: by induction on the operations, for every state in which the run may start. -/
theorem runIsTheFoldOfTheOperations : Obligations.RunIsTheFoldOfTheOperations := by
  unfold Obligations.RunIsTheFoldOfTheOperations
  exact core_run_presented

/-- Settles O11: `withPending` is the removal of the word that the step takes. -/
theorem stepRunsThePresentedOperation : Obligations.StepRunsThePresentedOperation := by
  unfold Obligations.StepRunsThePresentedOperation
  intro s w rest i hp hd
  exact step_of_decode hp hd

/-- Settles O37: offsets 0 to 2 are the ports, and bit 7 of a byte written at offset 3 chooses the control operation. -/
theorem registerMapNamesTheOperations : Obligations.RegisterMapNamesTheOperations := by
  unfold Obligations.RegisterMapNamesTheOperations
  intro s
  have hreadControl : exec .rdcw s = .next (memRead 3 s) := by rw [memRead_three]; rfl
  refine ⟨exec_readInstr_eq_memRead portAt_zero s, exec_readInstr_eq_memRead portAt_one s,
    exec_readInstr_eq_memRead portAt_two s, hreadControl, fun v => ?_⟩
  have hcontrol := exec_decodeControl_eq_memWrite v s
  refine ⟨exec_writeInstr_eq_memWrite portAt_zero v s, exec_writeInstr_eq_memWrite portAt_one v s,
    exec_writeInstr_eq_memWrite portAt_two v s, fun h7 => ?_, fun h7 => ?_⟩
  · rwa [decodeControl_of_standard h7] at hcontrol
  · rwa [decodeControl_of_bsr h7] at hcontrol

end Sys2Proof.Machine
end

section
/-! PROOFS. The statements about the control-word decoder (spec/40_control_decoder.md), and the facts they rest on: the
bits that a row of the opcode table fixes, and the word of a control write. -/

namespace Sys2Proof

/-! ### The word of a control write -/

/-- A word that matches a row has the row's bit wherever the mask fixes one (30_encoding.md R51). -/
theorem getLsbD_of_and_eq {w mask pattern : OpWord} (h : w &&& mask = pattern) {k : Nat}
    (hk : mask.getLsbD k = true) : w.getLsbD k = pattern.getLsbD k := by
  rw [← h, BitVec.getLsbD_and, hk, Bool.and_true]

theorem opData_getLsbD {k : Nat} (hk : k < 8) (w : OpWord) : (opData w).getLsbD k = w.getLsbD k := by
  simp only [opData, BitVec.getLsbD_extractLsb', hk, decide_true, Bool.true_and, Nat.zero_add]

/-- Class 01 and selector 11 spell a control write, whose byte chooses the operation (30_encoding.md R52). -/
theorem decode_of_control_bits {w : OpWord} (h11 : w.getLsbD 11 = false) (h10 : w.getLsbD 10 = true)
    (h9 : w.getLsbD 9 = true) (h8 : w.getLsbD 8 = true) : decode w = .ok (decodeControl (opData w)) := by
  simp only [decode, h11, h10, h9, h8]

end Sys2Proof

namespace Sys2Proof.Machine

/-! ### The two formats -/

theorem decodesAs_bsr : DecodesAs 0x700 0xF80 .bsr := by
  intro w hw
  have hcontrol : decode w = .ok (decodeControl (opData w)) :=
    decode_of_control_bits (getLsbD_of_and_eq hw rfl) (getLsbD_of_and_eq hw rfl) (getLsbD_of_and_eq hw rfl)
      (getLsbD_of_and_eq hw rfl)
  have h7 : (opData w).getLsbD 7 = false := (opData_getLsbD (by decide) w).trans (getLsbD_of_and_eq hw rfl)
  exact hcontrol.trans (congrArg Except.ok (decodeControl_of_bsr h7))

@[simp] theorem applyStandard_inp (v : Byte) (s : State) : (applyStandard v s).inp = s.inp := rfl

/-! ### The statements -/

/-- Settles O23: the new byte of `latch[C]` is the old one with bit `v[3:1]` replaced. -/
theorem bsrWritesOneLatchBit : Obligations.BsrWritesOneLatchBit := by
  unfold Obligations.BsrWritesOneLatchBit
  refine ⟨decodesAs_bsr, fun v s => ⟨withBit s.latch.c (bsrBitNumber v) (bsrSet v), ?_, fun k hk => ?_⟩⟩
  · exact (exec_of_effect (.bsr v s)).trans (congrArg Host.Outcome.next (applyBsr_eq v s.beginOp))
  · exact getLsbD_withBit s.latch.c (bsrBitNumber v) k (bsrSet v) hk

/-- Settles O40: the Standard format writes the configuration and the flags, and no array of port bytes. -/
theorem modesetKeepsThePortData : Obligations.ModesetKeepsThePortData := by
  unfold Obligations.ModesetKeepsThePortData
  intro v s
  exact ⟨_, exec_of_effect (.standard v s), applyStandard_latch v s.beginOp, applyStandard_out v s.beginOp,
    applyStandard_inp v s.beginOp⟩

end Sys2Proof.Machine
end

section
/-! PROOFS. The statements about the access policy (spec/41_access_policy.md), and the facts they rest on: the policy of
a group's port in the two Mode 1 modes, what the port accesses do there, and the indices that name no port. -/

namespace Sys2Proof.Machine

/-! ### The policy and the port accesses in Mode 1 -/

section
variable {g : Group} {s : State}

theorem policy_read_of_mode1Input (hm : s.mode g = .mode1Input) :
    policy (groupPort g) .read s = (.ok, cpuRead g s) := by
  simp only [policy_groupPort, groupPolicy, hm]

theorem policy_write_of_mode1Input (hm : s.mode g = .mode1Input) :
    policy (groupPort g) .write s = (.illegal, s) := by
  simp only [policy_groupPort, groupPolicy, hm]

theorem policy_read_of_mode1Output (hm : s.mode g = .mode1Output) :
    policy (groupPort g) .read s = (.warn, s) := by
  simp only [policy_groupPort, groupPolicy, hm]

theorem policy_write_of_mode1Output (hm : s.mode g = .mode1Output) :
    policy (groupPort g) .write s = (.ok, cpuWrite g s) := by
  simp only [policy_groupPort, groupPolicy, hm]

theorem readPort_of_mode1Input (hm : s.mode g = .mode1Input) :
    readPort (groupPort g) s = ((cpuRead g s).giveDiag .ok).giveByte (s.inp.get (groupPort g)) := by
  rw [readPort_eq, policy_read_of_mode1Input hm]; rfl

theorem readPort_of_mode1Output (hm : s.mode g = .mode1Output) :
    readPort (groupPort g) s = (s.giveDiag .warn).giveByte (s.latch.get (groupPort g)) := by
  rw [readPort_eq, policy_read_of_mode1Output hm]; rfl

/-- The latch is filled before the policy is asked, so the CPU-write transition moves and announces the new byte
(43_port_access.md R125). -/
theorem writePort_of_mode1Output (hm : s.mode g = .mode1Output) (v : Byte) :
    writePort (groupPort g) v s =
      ((cpuWrite g (s.setLatch (groupPort g) v)).giveDiag .ok).setOut (groupPort g) v := by
  have hm' : (s.setLatch (groupPort g) v).mode g = .mode1Output := by rwa [State.setLatch_mode]
  simp only [writePort, policy_write_of_mode1Output hm']; rfl

end

/-! ### Indices past the ports -/

theorem policyAt_of_three_le {i : Nat} (h : 3 ≤ i) (op : Access) (s : State) : policyAt i op s = (.unknown, s) := by
  simp only [policyAt, portAt_eq_none h]

section
variable {i : Nat} (h : 4 ≤ i) (s : State)
include h

theorem memRead_of_four_le : memRead i s = (s.beginOp.giveDiag .unknown).giveByte 0xFF := by
  have hports : 3 ≤ i := Nat.le_of_succ_le h
  have hcontrol : i ≠ 3 := Nat.ne_of_gt h
  simp only [memRead, portAt_eq_none hports, if_neg hcontrol, policyAt_of_three_le hports]; rfl

theorem memWrite_of_four_le (v : Byte) : memWrite i v s = s.beginOp.giveDiag .unknown := by
  have hports : 3 ≤ i := Nat.le_of_succ_le h
  have hcontrol : i ≠ 3 := Nat.ne_of_gt h
  simp only [memWrite, portAt_eq_none hports, if_neg hcontrol, policyAt_of_three_le hports]; rfl

end

/-! ### The statements -/

/-- Settles O29: the read is the CPU-read transition followed by the live byte. -/
theorem mode1InputPolicy : Obligations.Mode1InputPolicy := by
  unfold Obligations.Mode1InputPolicy
  intro g s hm
  have hm' : s.beginOp.mode g = .mode1Input := by rwa [State.beginOp_mode]
  refine ⟨policy_write_of_mode1Input hm, policy_read_of_mode1Input hm, _, exec_readInstr _ s, ?_⟩
  rw [readPort_of_mode1Input hm']
  simp [cpuRead_eq, Answer.empty]

/-- Settles O30: the read leaves the policy's state as it is, and the write is the CPU-write transition of the state
whose latch already holds the written byte. -/
theorem mode1OutputPolicy : Obligations.Mode1OutputPolicy := by
  unfold Obligations.Mode1OutputPolicy
  intro g s hm
  have hm' : s.beginOp.mode g = .mode1Output := by rwa [State.beginOp_mode]
  refine ⟨policy_read_of_mode1Output hm, policy_write_of_mode1Output hm, ⟨_, exec_readInstr _ s, ?_⟩,
    fun v => ⟨_, exec_writeInstr _ v s, ?_⟩⟩
  · rw [readPort_of_mode1Output hm']; rfl
  · rw [writePort_of_mode1Output hm']
    simp [cpuWrite_eq, Answer.empty]

/-- Settles O33: index 3 is the first that is no port, and index 4 the first that is not the control register either. -/
theorem outOfRangeIndexDegrades : Obligations.OutOfRangeIndexDegrades := by
  unfold Obligations.OutOfRangeIndexDegrades
  intro n s
  exact ⟨fun op => policyAt_of_three_le (Nat.le_add_left 3 n) op s, memRead_of_four_le (Nat.le_add_left 4 n) s,
    memWrite_of_four_le (Nat.le_add_left 4 n) s⟩

end Sys2Proof.Machine
end

section
/-! PROOFS. The statements about the handshake of each group (spec/42_handshake.md), and the facts they rest on: the
strobe with its guard written out, and the device as one group set into the rest of the device, which an operation of
the group neither reads nor writes. -/

namespace Sys2Proof.Machine

/-! ### The strobe -/

theorem decodesAs_stb : DecodesAs 0x800 0xF00 .stb := by
  intro w hw
  have h11 : w.getLsbD 11 = true := getLsbD_of_and_eq hw rfl
  have h10 : w.getLsbD 10 = false := getLsbD_of_and_eq hw rfl
  have h9 : w.getLsbD 9 = false := getLsbD_of_and_eq hw rfl
  have h8 : w.getLsbD 8 = false := getLsbD_of_and_eq hw rfl
  simp only [decode, h11, h10, h9, h8, opData]

/-- Port B's modes are told apart by their names among the four. -/
theorem ModeB.asMode_inj {m n : ModeB} : m.asMode = n.asMode ↔ m = n := by
  cases m <;> cases n <;> decide

theorem State.mode_b_eq_mode1Input_iff (s : State) : s.mode .B = .mode1Input ↔ s.modeB = .mode1Input :=
  ModeB.asMode_inj (n := .mode1Input)

theorem ModeB.asMode_ne_mode2 (m : ModeB) : m.asMode ≠ .mode2 := by
  cases m <;> decide

/-- The strobe of 42_handshake.md R103 with its guard written out. -/
theorem strobe_eq (g : Group) (s : State) :
    strobe g s =
      if s.mode g = .mode1Input ∧ s.ibf.get g = false then
        { s with
          latch := s.latch.set (groupPort g) (s.inp.get (groupPort g))
          ibf := s.ibf.set g true
          intr := s.intr.set g true
          answer := { s.answer with events := s.answer.events ++ [.ibf g true] ++ [.intr g true] } }
      else s := by
  split
  case isTrue accepted =>
    obtain ⟨hmode, hempty⟩ := accepted
    exact strobe_of_accepted hmode hempty
  case isFalse refused =>
    rw [← s.strobeAccepted_iff] at refused
    exact if_neg refused

/-! ### One group set into the rest of the device -/

/-- The device with the cells of group `g` and the answer taken from `s`, and all the rest, the other group, Port C, the
control word and the stream, taken from `r`. -/
def State.graft (g : Group) (s r : State) : State :=
  { r with
    latch := r.latch.set (groupPort g) (s.latch.get (groupPort g))
    out := r.out.set (groupPort g) (s.out.get (groupPort g))
    inp := r.inp.set (groupPort g) (s.inp.get (groupPort g))
    modeA := match g with | .A => s.modeA | .B => r.modeA
    modeB := match g with | .A => r.modeB | .B => s.modeB
    aIn := match g with | .A => s.aIn | .B => r.aIn
    bIn := match g with | .A => r.bIn | .B => s.bIn
    ibf := r.ibf.set g (s.ibf.get g)
    obf := r.obf.set g (s.obf.get g)
    intr := r.intr.set g (s.intr.get g)
    answer := s.answer }

section
variable (g : Group) (s r : State)

theorem State.graft_self : s.graft g s = s := by
  cases g <;> rfl

theorem groupView_graft : groupView g (s.graft g r) = groupView g s := by
  cases g <;> rfl

theorem groupView_graft_other : groupView (otherGroup g) (s.graft g r) = groupView (otherGroup g) r := by
  cases g <;> rfl

theorem State.graft_latch_c : (s.graft g r).latch.c = r.latch.c := by
  cases g <;> rfl

theorem State.graft_out_c : (s.graft g r).out.c = r.out.c := by
  cases g <;> rfl

theorem State.graft_inp_c : (s.graft g r).inp.c = r.inp.c := by
  cases g <;> rfl

theorem State.graft_mode : (s.graft g r).mode g = s.mode g := by
  cases g <;> rfl

theorem State.graft_isIn : (s.graft g r).isIn g = s.isIn g := by
  cases g <;> rfl

theorem State.graft_strobeAccepted : (s.graft g r).strobeAccepted g = s.strobeAccepted g := by
  cases g <;> rfl

/-- A state is made of its group `g` and its rest, so any state with the same group may give the group. -/
theorem State.graft_beginOp_of_groupView_eq (h : groupView g s = groupView g r) :
    (s.graft g r).beginOp = r.beginOp := by
  simp only [groupView, GroupView.mk.injEq] at h
  obtain ⟨hmode, hisIn, hlatch, hout, hinp, hibf, hobf, hintr⟩ := h
  cases g with
  | A =>
    simp only [State.mode, State.isIn] at hmode hisIn
    simp only [State.graft, hmode, hisIn, hlatch, hout, hinp, hibf, hobf, hintr]; rfl
  | B =>
    simp only [State.mode, State.isIn, ModeB.asMode_inj] at hmode hisIn
    simp only [State.graft, hmode, hisIn, hlatch, hout, hinp, hibf, hobf, hintr]; rfl

/-! ### What an operation does to its group is the same in every rest of the device -/

theorem strobe_graft : strobe g (s.graft g r) = (strobe g s).graft g r := by
  rw [strobe, strobe, State.graft_strobeAccepted, apply_ite (State.graft g · r)]
  cases g <;> rfl

theorem cpuRead_graft : cpuRead g (s.graft g r) = (cpuRead g s).graft g r := by
  cases g <;> rfl

theorem cpuWrite_graft : cpuWrite g (s.graft g r) = (cpuWrite g s).graft g r := by
  cases g <;> rfl

theorem acknowledge_graft : acknowledge g (s.graft g r) = (acknowledge g s).graft g r := by
  rw [acknowledge, acknowledge, State.graft_mode, apply_ite (State.graft g · r)]
  cases g <;> rfl

/-- The gate of Mode 2 reads the flags of group A; group B has no Mode 2 (10_state.md R14). -/
theorem groupPolicy_graft (op : Access) :
    groupPolicy g op (s.graft g r) = ((groupPolicy g op s).1, (groupPolicy g op s).2.graft g r) := by
  unfold groupPolicy
  rw [State.graft_mode, State.graft_isIn]
  cases hm : s.mode g with
  | mode0 => rfl
  | mode1Input => cases op <;> simp only [cpuRead_graft]
  | mode1Output => cases op <;> simp only [cpuWrite_graft]
  | mode2 =>
    cases g with
    | A => rfl
    | B => exact absurd hm s.modeB.asMode_ne_mode2

theorem readPort_graft : readPort (groupPort g) (s.graft g r) = (readPort (groupPort g) s).graft g r := by
  simp only [readPort_eq, policy_groupPort, groupPolicy_graft]
  cases g <;> rfl

theorem writePort_graft (v : Byte) :
    writePort (groupPort g) v (s.graft g r) = (writePort (groupPort g) v s).graft g r := by
  have hlatch : (s.graft g r).setLatch (groupPort g) v = (s.setLatch (groupPort g) v).graft g r := by
    cases g <;> rfl
  simp only [writePort, hlatch, policy_groupPort, groupPolicy_graft, apply_ite (State.graft g · r)]
  cases g <;> rfl

theorem driveInput_graft (v : Byte) :
    driveInput (groupPort g) v (s.graft g r) = (driveInput (groupPort g) v s).graft g r := by
  cases g <;> rfl

end

/-! ### The operations of one group -/

theorem addressedGroup_readInstr {p : Port} {g : Group} :
    addressedGroup (readInstr p) = some g ↔ p = groupPort g := by
  cases p <;> cases g <;> decide

theorem addressedGroup_writeInstr {p : Port} {v : Byte} {g : Group} :
    addressedGroup (writeInstr p v) = some g ↔ p = groupPort g := by
  cases p <;> cases g <;> simp [writeInstr, addressedGroup, groupPort]

theorem addressedGroup_driveInstr {p : Port} {v : Byte} {g : Group} :
    addressedGroup (driveInstr p v) = some g ↔ p = groupPort g := by
  cases p <;> cases g <;> simp [driveInstr, addressedGroup, groupPort]

/-- An operation that addresses a group is no control write and no `RESET`. -/
theorem clearsFlags_of_addressedGroup {i : Instr} {g : Group} (ha : addressedGroup i = some g) :
    clearsFlags i = false := by
  cases i with
  | modeset | reset => cases ha
  | _ => rfl

/-- An operation runs from the empty answer, whatever the last one answered. -/
theorem exec_beginOp (i : Instr) (s : State) : exec i s.beginOp = exec i s := by
  cases i <;> rfl

/-- An operation of a group acts on the group alone: it does the same whatever the rest of the device, and leaves that
rest as it is. -/
theorem exec_graft {i : Instr} {g : Group} (ha : addressedGroup i = some g) {s t : State} (h : exec i s = .next t)
    (r : State) : exec i (s.graft g r) = .next (t.graft g r) := by
  apply exec_of_effect
  cases effect_of_exec h with
  | read p =>
    obtain rfl := addressedGroup_readInstr.1 ha
    rw [← readPort_graft]; exact .read (groupPort g) (s.graft g r)
  | write p v =>
    obtain rfl := addressedGroup_writeInstr.1 ha
    rw [← writePort_graft]; exact .write (groupPort g) v (s.graft g r)
  | drive p v =>
    obtain rfl := addressedGroup_driveInstr.1 ha
    rw [← driveInput_graft]; exact .drive (groupPort g) v (s.graft g r)
  | strobe x =>
    obtain rfl : groupOf x = g := Option.some.inj ha
    rw [← strobe_graft]; exact .strobe x (s.graft (groupOf x) r)
  | acknowledge x =>
    obtain rfl : groupOf x = g := Option.some.inj ha
    rw [← acknowledge_graft]; exact .acknowledge x (s.graft (groupOf x) r)
  | readControl | standard | bsr | reset => cases ha

/-- The frame: after an operation of a group, the rest of the device is the rest before it. -/
theorem graft_of_exec {i : Instr} {g : Group} (ha : addressedGroup i = some g) {s t : State} (h : exec i s = .next t) :
    t.graft g s = t := by
  have hgraft := exec_graft ha h s
  rw [State.graft_self, h] at hgraft
  exact (Host.Outcome.next.inj hgraft).symm

/-! ### The statements -/

/-- Settles O48: set into the rest of the state before it, the state after the operation is itself; and set into the
rest of another state with the same group, it is what the operation makes of that state. -/
theorem groupsAreIndependent : Obligations.GroupsAreIndependent := by
  unfold Obligations.GroupsAreIndependent
  intro i g ha
  refine ⟨fun s t h => ?_, fun s₁ s₂ hview => ?_⟩
  · have hframe := graft_of_exec ha h
    obtain ⟨hcw, hma, hmb, haIn, hbIn, hcu, hcl, hstb⟩ :=
      State.config_eq_iff.1 (exec_config h (clearsFlags_of_addressedGroup ha))
    have hother := groupView_graft_other g t s
    have hlatch := State.graft_latch_c g t s
    have hout := State.graft_out_c g t s
    have hinp := State.graft_inp_c g t s
    rw [hframe] at hother hlatch hout hinp
    exact ⟨hother, hlatch, hout, hinp, hcw, hma, hmb, haIn, hbIn, hcu, hcl, hstb⟩
  · obtain ⟨t₁, h₁, -⟩ := exec_eq_next i s₁
    have h₂ : exec i s₂ = .next (t₁.graft g s₂) := by
      rw [← exec_beginOp, ← State.graft_beginOp_of_groupView_eq g s₁ s₂ hview, exec_beginOp]
      exact exec_graft ha h₁ s₂
    exact ⟨t₁, t₁.graft g s₂, h₁, h₂, (groupView_graft g t₁ s₂).symm, rfl⟩

/-- Settles O24: bit 0 of the identifier picks the group, and `strobe_eq` is the rule of that group. -/
theorem stbFollowsItsRule : Obligations.StbFollowsItsRule := by
  unfold Obligations.StbFollowsItsRule
  refine ⟨decodesAs_stb, fun x s => (exec_of_effect (.strobe x s)).trans (congrArg Host.Outcome.next ?_)⟩
  rw [strobe_eq, groupOf_eq_mod]
  by_cases even : x.toNat % 2 = 0
  · simp only [if_pos even, State.beginOp_mode]; rfl
  · simp only [if_neg even, State.beginOp_mode, State.mode_b_eq_mode1Input_iff]; rfl

/-- Settles O42: with the buffer emptied, the guard of the strobe is the mode alone. -/
theorem cpuReadTransition : Obligations.CpuReadTransition := by
  unfold Obligations.CpuReadTransition
  intro g s
  refine ⟨?_, fun hm => (State.strobeAccepted_iff _ g).2 ⟨?_, ?_⟩⟩
  · rw [cpuRead_eq, List.append_assoc]; rfl
  · simpa [cpuRead] using hm
  · rw [cpuRead_eq, GroupBits.get_set_same]

/-- Settles O43: the two events are announced in the order in which they are emitted. -/
theorem cpuWriteTransition : Obligations.CpuWriteTransition := by
  unfold Obligations.CpuWriteTransition
  intro g s
  rw [cpuWrite_eq, List.append_assoc]; rfl

end Sys2Proof.Machine
end

section
/-! PROOFS. The statements about the port accesses (spec/43_port_access.md), and the facts they rest on: the words of a
row that fixes bits 11:8, what an access of Port C does, and a bus write of any port as one whole next state. -/

namespace Sys2Proof

/-! ### The words of a row that fixes bits 11:8 -/

/-- A word with the class and selector of a row is those fields in front of its own low byte (30_encoding.md R50). -/
theorem eq_opWord_of_and_F00 {w : OpWord} {cls sel : BitVec 2} (h : w &&& 0xF00 = opWord cls sel 0) :
    w = opWord cls sel (opData w) := by
  apply BitVec.eq_of_getLsbD_eq
  intro k hk
  by_cases low : k < 8
  · simp only [opWord, opData, BitVec.getLsbD_append, BitVec.getLsbD_extractLsb', low, decide_true, if_true,
      Bool.true_and, Nat.zero_add]
  · have hfixed : (0xF00 : OpWord).getLsbD k = true := by interval_cases k <;> rfl
    rw [getLsbD_of_and_eq h hfixed]
    simp only [opWord, BitVec.getLsbD_append, low, if_false]

end Sys2Proof

namespace Sys2Proof.Machine

theorem decodesAs_of_decode_opWord {cls sel : BitVec 2} {f : Byte → Instr}
    (h : ∀ d, decode (opWord cls sel d) = .ok (f d)) : DecodesAs (opWord cls sel 0) 0xF00 f := by
  intro w hw
  rw [eq_opWord_of_and_F00 hw, h]
  exact congrArg (Except.ok ∘ f) (opData_opWord cls sel (opData w)).symm

theorem decodesAs_rdc : DecodesAs 0x200 0xF00 (fun _ => .rdc) :=
  decodesAs_of_decode_opWord (cls := 0b00) (sel := 0b10) fun d => by
    simp only [decode, opWord_bit11, opWord_bit10, opWord_bit9, opWord_bit8]; rfl

theorem decodesAs_rdcw : DecodesAs 0x300 0xF00 (fun _ => .rdcw) :=
  decodesAs_of_decode_opWord (cls := 0b00) (sel := 0b11) fun d => by
    simp only [decode, opWord_bit11, opWord_bit10, opWord_bit9, opWord_bit8]; rfl

theorem decodesAs_wrc : DecodesAs 0x600 0xF00 .wrc :=
  decodesAs_of_decode_opWord (cls := 0b01) (sel := 0b10) fun v => decode_encode (i := .wrc v) rfl

/-! ### The accesses of Port C -/

theorem readPort_c (s : State) : readPort .C s = (s.giveDiag .ok).giveByte s.inp.c := rfl

theorem policy_write_c_of_inputs {s : State} (h : s.cuIn = true ∧ s.clIn = true) :
    policy .C .write s = (.illegal, s) := by
  simp only [policy, portCOutcome, Bool.and_eq_true, if_pos h]

theorem policy_write_c_of_output {s : State} (h : ¬ (s.cuIn = true ∧ s.clIn = true)) :
    policy .C .write s = (.ok, s) := by
  simp only [policy, portCOutcome, Bool.and_eq_true, if_neg h]

/-! ### A bus write of any port -/

theorem transfersOnWrite_iff {o : PolicyOutcome} : transfersOnWrite o = true ↔ o = .ok ∨ o = .warn := by
  cases o <;> decide

/-- The policy emits events and gives no byte; the return byte is the read's own (43_port_access.md R120). -/
theorem policy_answer_ret (p : Port) (op : Access) (s : State) :
    (policy p op s).2.answer.ret = s.answer.ret := by
  rcases policy_cases p op s with h | ⟨g, -, -, -, h⟩ | ⟨g, -, -, -, h⟩
  · rw [h]
  · rw [h, cpuRead_eq]
  · rw [h, cpuWrite_eq]

/-- Beside the policy's side effect on the filled latch, a write sets the output register where the outcome lets it
through, and the advisory outcome. -/
theorem writePort_eq (p : Port) (v : Byte) (s : State) :
    writePort p v s =
      { (policy p .write (s.setLatch p v)).2 with
        out := if transfersOnWrite (policy p .write (s.setLatch p v)).1 = true then s.out.set p v else s.out
        answer :=
          { (policy p .write (s.setLatch p v)).2.answer with
            diag := some (outcomeDiag (policy p .write (s.setLatch p v)).1) } } := by
  rw [← writePort_out]
  simp only [writePort]
  split <;> rfl

/-! ### The statements -/

/-- Settles O34: the policy keeps what the read's byte is picked from, and each of the four outcomes picks its byte. -/
theorem readAsksThePolicy : Obligations.ReadAsksThePolicy := by
  unfold Obligations.ReadAsksThePolicy
  intro p s r
  obtain ⟨hlatch, hinp, hcw, hmodeA, hmodeB, haIn, hbIn, hcuIn, hclIn, -, -⟩ := policy_frame p .read s.beginOp
  refine ⟨?_, hlatch, policy_read_out p s.beginOp, hinp, hcw, hmodeA, hmodeB, haIn, hbIn, hcuIn, hclIn⟩
  rw [exec_readInstr, readPort_eq]
  have hr : r = policy p .read s.beginOp := rfl
  rw [← hr]
  cases r.1 <;> rfl

/-- Settles O36: `writePort_eq` field by field; of the policy's state only the flags and the events are new. -/
theorem writeStoresTheLatchFirst : Obligations.WriteStoresTheLatchFirst := by
  unfold Obligations.WriteStoresTheLatchFirst
  intro p v s
  refine ⟨_, exec_writeInstr p v s, ?_⟩
  intro r
  rw [writePort_eq]
  refine ⟨?_, ?_, fun q hq => ⟨?_, ?_⟩, ?_, rfl, rfl, rfl⟩
  · rw [policy_latch]; exact PortBytes.get_set_same s.latch p v
  · simp only [transfersOnWrite_iff, apply_ite (PortBytes.get · p), PortBytes.get_set_same]; rfl
  · rw [policy_latch]; exact PortBytes.get_set_ne s.latch v hq
  · simp only [apply_ite (PortBytes.get · q), PortBytes.get_set_ne _ v hq, ite_self]; rfl
  · have hret : r.2.answer.ret = none := policy_answer_ret p .write _
    rw [← hret]; rfl

/-- Settles O21: the two branches of the Port C policy, each with its whole next state. -/
theorem wrcFollowsItsRule : Obligations.WrcFollowsItsRule := by
  unfold Obligations.WrcFollowsItsRule
  refine ⟨decodesAs_wrc, fun v s => (exec_writeInstr .C v s).trans (congrArg Host.Outcome.next ?_)⟩
  rw [writePort_eq]
  by_cases inputs : s.cuIn = true ∧ s.clIn = true
  · rw [policy_write_c_of_inputs (s := s.beginOp.setLatch .C v) inputs, if_pos inputs]; rfl
  · rw [policy_write_c_of_output (s := s.beginOp.setLatch .C v) inputs, if_neg inputs]; rfl

/-- Settles O17: the policy lets every read of Port C through to the live input. -/
theorem rdcReturnsTheInput : Obligations.RdcReturnsTheInput := by
  unfold Obligations.RdcReturnsTheInput
  exact ⟨decodesAs_rdc, fun s =>
    (exec_readInstr .C s).trans (congrArg Host.Outcome.next (readPort_c s.beginOp))⟩

/-- Settles O18: a read of the control register asks no policy. -/
theorem rdcwReturnsTheSentinel : Obligations.RdcwReturnsTheSentinel := by
  unfold Obligations.RdcwReturnsTheSentinel
  exact ⟨decodesAs_rdcw, fun s => exec_of_effect (.readControl s)⟩

end Sys2Proof.Machine
end

section
/-! PROOFS. The statement about errors (spec/60_exceptions.md): the device has none, so every operation completes, and
the words that wait after it are the words that waited before. -/

namespace Sys2Proof.Machine

/-- No operation touches the stream: run on the words already waiting, it leaves exactly those (`exec_withPending`). -/
theorem exec_pending {i : Instr} {s t : State} (h : exec i s = .next t) : t.pending = s.pending := by
  have hkept : exec i s = .next (t.withPending s.pending) := exec_withPending h s.pending
  have ht : t = t.withPending s.pending := Host.Outcome.next.inj (h.symm.trans hkept)
  calc
    t.pending = (t.withPending s.pending).pending := congrArg State.pending ht
    _ = s.pending := rfl

/-- Settles O13: every operation has an effect in every state (`exec_eq_next`), and no effect touches the stream. -/
theorem everyOperationCompletes : Obligations.EveryOperationCompletes := by
  unfold Obligations.EveryOperationCompletes
  intro i s
  obtain ⟨t, ht, -⟩ := exec_eq_next i s
  exact ⟨t, ht, exec_pending ht⟩

end Sys2Proof.Machine
end

section
/-! PROOFS. The statement about hazards (spec/70_reset_and_hazards.md): a strobe that the guard of 42_handshake.md R103
does not let through is the start of an operation and nothing more. -/

namespace Sys2Proof.Machine

/-- Settles O44: the full buffer closes the guard in every mode (`strobe_of_not_accepted`), which leaves the emptied
answer of `beginOp`. -/
theorem strobeWhileFullIsDropped : Obligations.StrobeWhileFullIsDropped := by
  unfold Obligations.StrobeWhileFullIsDropped
  intro g s full
  have dropped : strobe (groupOf g) s.beginOp = s.beginOp := by
    apply strobe_of_not_accepted
    right
    rwa [s.beginOp_ibf]
  calc
    exec (.stb g) s = .next (strobe (groupOf g) s.beginOp) := exec_of_effect (.strobe g s)
    _ = .next s.beginOp := congrArg Host.Outcome.next dropped
    _ = .next { s with answer := ⟨none, [], none⟩ } := rfl

end Sys2Proof.Machine
end

section
/-! PROOFS. The statements about the operation word (spec/30_encoding.md), and the facts they rest on: a word is its
class, its selector and its byte, and the decoder inverted. -/

namespace Sys2Proof

/-! ### A word is its three fields -/

/-- Bits 11:8 of a word fix its class and its selector. -/
theorem eq_opWord_of_bits {w : OpWord} {cls sel : BitVec 2} (h11 : w.getLsbD 11 = cls.getLsbD 1)
    (h10 : w.getLsbD 10 = cls.getLsbD 0) (h9 : w.getLsbD 9 = sel.getLsbD 1) (h8 : w.getLsbD 8 = sel.getLsbD 0) :
    w = opWord cls sel (opData w) := by
  apply BitVec.eq_of_getLsbD_eq
  intro k hk
  by_cases low : k < 8
  · simp only [opWord, opData, BitVec.getLsbD_append, BitVec.getLsbD_extractLsb', low, decide_true, if_true,
      Bool.true_and, Nat.zero_add]
  · have high : k = 8 ∨ k = 9 ∨ k = 10 ∨ k = 11 := by omega
    rcases high with rfl | rfl | rfl | rfl
    · rw [opWord_bit8, h8]
    · rw [opWord_bit9, h9]
    · rw [opWord_bit10, h10]
    · rw [opWord_bit11, h11]

/-- Every word is the word of some class, selector and byte (30_encoding.md R50). -/
theorem exists_eq_opWord (w : OpWord) : ∃ cls sel d, w = opWord cls sel d := by
  refine ⟨w.extractLsb' 10 2, w.extractLsb' 8 2, opData w, eq_opWord_of_bits ?_ ?_ ?_ ?_⟩ <;>
    simp only [BitVec.getLsbD_extractLsb', Nat.reduceLT, decide_true, Bool.true_and, Nat.reduceAdd]

/-- A class or a selector has four values. -/
theorem twoBits_cases : ∀ b : BitVec 2, b = 0b00 ∨ b = 0b01 ∨ b = 0b10 ∨ b = 0b11 := by decide

/-! ### The decoder inverted -/

theorem wf_decodeControl (v : Byte) : (decodeControl v).wf = true := by
  cases h : v.getLsbD 7 with
  | true => rw [decodeControl_of_standard h]; exact h
  | false => rw [decodeControl_of_bsr h, Instr.wf, h]; rfl

theorem encode_decodeControl (v : Byte) : encode (decodeControl v) = opWord 0b01 0b11 v := by
  cases h : v.getLsbD 7 with
  | true => rw [decodeControl_of_standard h]; rfl
  | false => rw [decodeControl_of_bsr h]; rfl

/-- The operations whose word carries no operand: bits 7:0 are ignored (30_encoding.md R64). -/
def ignoresLowByte : Instr → Bool
  | .rda | .rdb | .rdc | .rdcw | .reset => true
  | _ => false

theorem ignoresLowByte_decodeControl (v : Byte) : ignoresLowByte (decodeControl v) = false := by
  cases h : v.getLsbD 7 with
  | true => rw [decodeControl_of_standard h]; rfl
  | false => rw [decodeControl_of_bsr h]; rfl

/-- What the decoder answers is well formed and is the operation of the word, whose byte it ignores or carries. -/
theorem decode_ok_cases {w : OpWord} {i : Instr} (h : decode w = .ok i) :
    i.wf = true ∧ encode i = if ignoresLowByte i = true then w &&& 0xF00 else w := by
  obtain ⟨cls, sel, d, rfl⟩ := exists_eq_opWord w
  rw [opWord_and_F00]
  simp only [decode, opWord_bit11, opWord_bit10, opWord_bit9, opWord_bit8, opData_opWord] at h
  rcases twoBits_cases cls with rfl | rfl | rfl | rfl
  · -- the bus reads
    rcases twoBits_cases sel with rfl | rfl | rfl | rfl <;> cases h <;> exact ⟨rfl, rfl⟩
  · -- the bus writes; selector 11 is the control register
    rcases twoBits_cases sel with rfl | rfl | rfl | rfl
    · cases h; exact ⟨rfl, rfl⟩
    · cases h; exact ⟨rfl, rfl⟩
    · cases h; exact ⟨rfl, rfl⟩
    · cases h
      rw [ignoresLowByte_decodeControl]
      exact ⟨wf_decodeControl d, encode_decodeControl d⟩
  · -- the pulses and `RESET`; selector 11 is reserved
    rcases twoBits_cases sel with rfl | rfl | rfl | rfl <;> cases h <;> exact ⟨rfl, rfl⟩
  · -- the input drives; selector 11 is reserved
    rcases twoBits_cases sel with rfl | rfl | rfl | rfl <;> cases h <;> exact ⟨rfl, rfl⟩

theorem wf_of_decode {w : OpWord} {i : Instr} (h : decode w = .ok i) : i.wf = true := (decode_ok_cases h).1

/-! ### The opcode table -/

/-- No row fixes a bit below bit 7, so the rows that a word matches are told by its bits 11:7. -/
theorem filter_opcodeTable (cls sel : BitVec 2) (d : Byte) :
    opcodeTable.filter (·.matchesWord (opWord cls sel d)) =
      opcodeTable.filter (·.matchesWord (opWord cls sel (if d.getLsbD 7 then 0x80 else 0))) := by
  refine List.filter_congr fun r hr => ?_
  have hmask : r.mask = 0xF80 &&& r.mask := by revert r; decide
  rw [OpcodeRow.matchesWord, OpcodeRow.matchesWord, hmask, ← BitVec.and_assoc, ← BitVec.and_assoc, opWord_and_F80,
    opWord_and_F80]
  cases d.getLsbD 7 <;> rfl

/-- The rows that a word matches spell what the decoder answers, and a reserved word matches none. -/
theorem map_instr_filter_opcodeTable (cls sel : BitVec 2) (d : Byte) :
    (opcodeTable.filter (·.matchesWord (opWord cls sel d))).map (·.instr d) =
      (decode (opWord cls sel d)).toOption.toList := by
  rw [filter_opcodeTable]
  simp only [decode, opWord_bit11, opWord_bit10, opWord_bit9, opWord_bit8, opData_opWord, decodeControl]
  rcases twoBits_cases cls with rfl | rfl | rfl | rfl <;> rcases twoBits_cases sel with rfl | rfl | rfl | rfl <;>
    cases d.getLsbD 7 <;> rfl

/-! ### The reserved words and the bus half -/

section
variable {w : OpWord}

/-- A bit of the field 11:8. -/
theorem getLsbD_of_extractLsb'_eq {f : BitVec 4} (h : w.extractLsb' 8 4 = f) {k : Nat} (hk : k < 4) :
    w.getLsbD (8 + k) = f.getLsbD k := by
  rw [← h, BitVec.getLsbD_extractLsb', decide_eq_true hk, Bool.true_and]

theorem decode_of_field_B (h : w.extractLsb' 8 4 = 0xB#4) : decode w = .error (.noSuchEventKind w) := by
  have h8 : w.getLsbD 8 = true := getLsbD_of_extractLsb'_eq h (k := 0) (by decide)
  have h9 : w.getLsbD 9 = true := getLsbD_of_extractLsb'_eq h (k := 1) (by decide)
  have h10 : w.getLsbD 10 = false := getLsbD_of_extractLsb'_eq h (k := 2) (by decide)
  have h11 : w.getLsbD 11 = true := getLsbD_of_extractLsb'_eq h (k := 3) (by decide)
  simp only [decode, h11, h10, h9, h8]

theorem decode_of_field_F (h : w.extractLsb' 8 4 = 0xF#4) : decode w = .error (.noInputPinsAtOffset3 w) := by
  have h8 : w.getLsbD 8 = true := getLsbD_of_extractLsb'_eq h (k := 0) (by decide)
  have h9 : w.getLsbD 9 = true := getLsbD_of_extractLsb'_eq h (k := 1) (by decide)
  have h10 : w.getLsbD 10 = true := getLsbD_of_extractLsb'_eq h (k := 2) (by decide)
  have h11 : w.getLsbD 11 = true := getLsbD_of_extractLsb'_eq h (k := 3) (by decide)
  simp only [decode, h11, h10, h9, h8]

theorem decode_of_bit11_clear (h11 : w.getLsbD 11 = false) : ∃ i, decode w = .ok i := by
  unfold decode
  rw [h11]
  cases w.getLsbD 10 <;> cases w.getLsbD 9 <;> cases w.getLsbD 8 <;> exact ⟨_, rfl⟩

end

end Sys2Proof

namespace Sys2Proof.Machine

/-- The row of an operation without an operand fixes bits 11:8, and any byte may stand below them. -/
theorem decodesAs_of_ignoresLowByte {i : Instr} (h : ignoresLowByte i = true) :
    DecodesAs (encode i) 0xF00 (fun _ => i) := by
  cases i with
  | rda | rdb | rdc | rdcw | reset =>
    refine decodesAs_of_decode_opWord fun d => ?_
    simp only [decode, opWord_bit11, opWord_bit10, opWord_bit9, opWord_bit8]; rfl
  | _ => cases h

/-- A word that spells no operation is refused under the decoder's own reason (30_encoding.md R60). -/
theorem step_present_of_error {w : OpWord} {why : DecodeError} (h : decode w = .error why) (s : State) :
    step (present w s) = .refused (.reservedWord why) := by
  rw [step_of_next_word rfl, h]

/-! ### The pseudo-operations -/

theorem expand_setbit : ∀ n : BitVec 3,
    expand (.setbit n) = .bsr (0b0000#4 ++ n ++ 1#1) ∧ expand (.clrbit n) = .bsr (0b0000#4 ++ n ++ 0#1) := by
  decide

theorem expand_config : ∀ (ma : BitVec 2) (da dcu mb db dcl : Bool), expand (.config ma da dcu mb db dcl) =
    .modeset (1#1 ++ ma ++ BitVec.ofBool da ++ BitVec.ofBool dcu ++ BitVec.ofBool mb ++ BitVec.ofBool db ++
      BitVec.ofBool dcl) := by
  decide

theorem wf_readAtOffset (p : BitVec 2) : (readAtOffset p).wf = true := by
  rcases twoBits_cases p with rfl | rfl | rfl | rfl <;> rfl

theorem wf_writeAtOffset (p : BitVec 2) (v : Byte) : (writeAtOffset p v).wf = true := by
  rcases twoBits_cases p with rfl | rfl | rfl | rfl
  · rfl
  · rfl
  · rfl
  · exact wf_decodeControl v

theorem wf_expand (p : Pseudo) : (expand p).wf = true := by
  cases p with
  | wrcw v => exact wf_decodeControl v
  | rd p => exact wf_readAtOffset p
  | wr p v => exact wf_writeAtOffset p v
  | setin p v => cases p <;> rfl
  | setbit n => rw [(expand_setbit n).1, Instr.wf, BitVec.getLsbD_append, BitVec.getLsbD_append]; rfl
  | clrbit n => rw [(expand_setbit n).2, Instr.wf, BitVec.getLsbD_append, BitVec.getLsbD_append]; rfl
  | config ma da dcu mb db dcl => rw [expand_config, Instr.wf]; simp only [BitVec.getLsbD_append]; rfl

/-! ### The statements -/

/-- Settles O7: `decode_encode`, which needs the operand to be one the encoding admits in the control formats alone. -/
theorem decodeOfEncodeIsTheInstruction : Obligations.DecodeOfEncodeIsTheInstruction := by
  unfold Obligations.DecodeOfEncodeIsTheInstruction
  intro i hwf
  exact decode_encode hwf

/-- Settles O8: the decoder inverted, read once for each operation. -/
theorem decodedInstructionReencodes : Obligations.DecodedInstructionReencodes := by
  unfold Obligations.DecodedInstructionReencodes
  intro w i h
  obtain ⟨hwf, hword⟩ := decode_ok_cases h
  refine ⟨hwf, hword.trans ?_⟩
  cases i <;> rfl

/-- Settles O9: the table is searched on the fixed bits alone, of which there are 32 values. -/
theorem everyWordMatchesOneRowOrIsReserved : Obligations.EveryWordMatchesOneRowOrIsReserved := by
  unfold Obligations.EveryWordMatchesOneRowOrIsReserved
  intro w
  obtain ⟨cls, sel, d, rfl⟩ := exists_eq_opWord w
  have hbyte : (opWord cls sel d).extractLsb' 0 8 = d := opData_opWord cls sel d
  rw [hbyte]
  refine (map_instr_filter_opcodeTable cls sel d).trans ?_
  cases decode (opWord cls sel d) <;> rfl

/-- Settles O10: bits 11:8 of a word of either range choose the decoder's two error answers. -/
theorem reservedWordsAreRefused : Obligations.ReservedWordsAreRefused := by
  unfold Obligations.ReservedWordsAreRefused
  intro w s
  exact ⟨fun h => step_present_of_error (decode_of_field_B h) s,
    fun h => step_present_of_error (decode_of_field_F h) s, decode_of_bit11_clear⟩

/-- Settles O59: the seven rows, of which only the control bytes need their bits compared. -/
theorem pseudoOperationsSpellTheirFields : Obligations.PseudoOperationsSpellTheirFields := by
  unfold Obligations.PseudoOperationsSpellTheirFields
  exact ⟨wf_expand, fun _ => rfl, ⟨rfl, rfl, rfl, rfl⟩, fun _ => ⟨rfl, rfl, rfl, rfl⟩, fun _ => ⟨rfl, rfl, rfl⟩,
    expand_setbit, expand_config⟩

/-- Settles O6: the fourteen words, decoded. -/
theorem decodeReadsTheSpecWords : Obligations.DecodeReadsTheSpecWords := by
  unfold Obligations.DecodeReadsTheSpecWords
  exact ⟨rfl, rfl, rfl, rfl, rfl, rfl, rfl, rfl, rfl, rfl, rfl, rfl, rfl, rfl⟩

end Sys2Proof.Machine
end

section
/-! PROOFS. The statements about the whole state (spec/10_state.md): reset, rest and the invariant that every step keeps.
They rest on one fact of the handshake: an operation is at most one cause for a group. -/

namespace Sys2Proof.Machine

/-! ### An operation is at most one cause for a group -/

/-- The cause of the table of 10_state.md R16 that a performed transition is. -/
def triggerCause : Trigger → FlagCauses
  | .strobe => { strobed := true }
  | .cpuRead => { read := true }
  | .cpuWrite => { written := true }
  | .acknowledge => { acknowledged := true }

theorem triggerActs_of_performs {k : Trigger} {g : Group} {i : Instr} {s : State} (h : performs k g i s = true) :
    triggerActs (s.mode g) (s.ibf.get g) k = true := by
  simp only [performs, Bool.and_eq_true] at h
  exact h.2

/-- A performed transition is the operation's one cause, because an operation is one trigger of one group. -/
theorem flagCauses_of_performs {k : Trigger} {g : Group} {i : Instr} {s : State} (h : performs k g i s = true) :
    flagCauses i s g = triggerCause k := by
  have hacts := triggerActs_of_performs h
  have htrigger : triggerOf i = some (k, g) := by
    rw [performs_eq, Bool.and_eq_true, decide_eq_true_eq] at h
    exact h.1
  have hclears : clearsFlags i = false := by
    cases i with
    | modeset | reset => cases htrigger
    | _ => rfl
  simp only [flagCauses, performs_eq, htrigger, hclears]
  cases k <;> simp [triggerCause, hacts]

theorem flagCauses_of_not_performs {g : Group} {i : Instr} {s : State} (hc : clearsFlags i = false)
    (h : ∀ k, performs k g i s = false) : flagCauses i s g = {} := by
  simp only [flagCauses, h, hc]

/-- In Mode 0 and Mode 2 no trigger acts (42_handshake.md R102, decision D19). -/
theorem performs_of_inert {g : Group} {s : State} (hm : s.mode g = .mode0 ∨ s.mode g = .mode2) (k : Trigger) (i : Instr) :
    performs k g i s = false := by
  rw [performs_eq]
  rcases hm with hm | hm <;> rw [hm] <;> cases k <;> exact Bool.and_false _

/-! ### The legal flag values -/

/-- The flag triple is one the mode allows (42_handshake.md R115). -/
def GroupFlags.Legal (f : GroupFlags) (m : Mode) : Prop := flagsLegal m f.ibf f.obf f.intr = true

theorem flagsLegal_iff (s : State) : FlagsLegal s ↔ ∀ g, (s.flags g).Legal (s.mode g) :=
  ⟨fun ⟨ha, hb⟩ g => match g with | .A => ha | .B => hb, fun h => ⟨h .A, h .B⟩⟩

theorem GroupFlags.legal_after_cleared (f : GroupFlags) (m : Mode) (c : FlagCauses) (hc : c.cleared = true) :
    (f.after c).Legal m := by
  simp only [GroupFlags.Legal, GroupFlags.after, hc]
  cases m <;> rfl

/-- A transition that acts in a mode leads from a value the mode allows to one it allows (42_handshake.md section 4). -/
theorem GroupFlags.legal_after_trigger {f : GroupFlags} {m : Mode} {k : Trigger} (hf : f.Legal m)
    (hk : triggerActs m f.ibf k = true) : (f.after (triggerCause k)).Legal m := by
  cases k with
  | strobe =>
    obtain ⟨rfl, empty⟩ : m = .mode1Input ∧ f.ibf = false := by simpa [triggerActs] using hk
    simp_all [Legal, flagsLegal, after, triggerCause]
  | cpuRead =>
    obtain rfl : m = .mode1Input := by simpa [triggerActs] using hk
    simp_all [Legal, flagsLegal, after, triggerCause]
  | cpuWrite =>
    obtain rfl : m = .mode1Output := by simpa [triggerActs] using hk
    simp_all [Legal, flagsLegal, after, triggerCause]
  | acknowledge =>
    obtain rfl : m = .mode1Output := by simpa [triggerActs] using hk
    simp_all [Legal, flagsLegal, after, triggerCause]

theorem exec_keeps_flagsLegal {i : Instr} {s t : State} (h : exec i s = .next t) (hs : FlagsLegal s) :
    FlagsLegal t := by
  rw [flagsLegal_iff] at hs ⊢
  intro g
  rw [exec_flags h g]
  cases hc : clearsFlags i with
  | true => exact GroupFlags.legal_after_cleared _ _ _ hc
  | false =>
    obtain ⟨-, hmodeA, hmodeB, -⟩ := State.config_eq_iff.1 (exec_config h hc)
    have hmode : t.mode g = s.mode g := by cases g <;> simp only [State.mode, hmodeA, hmodeB]
    rw [hmode]
    by_cases hk : ∃ k, performs k g i s = true
    · obtain ⟨k, hk⟩ := hk
      rw [flagCauses_of_performs hk]
      exact GroupFlags.legal_after_trigger (hs g) (triggerActs_of_performs hk)
    · rw [flagCauses_of_not_performs hc fun k => Bool.eq_false_iff.2 fun h => hk ⟨k, h⟩, GroupFlags.after_no_cause]
      exact hs g

/-! ### The invariant -/

theorem inv_reset : Inv State.reset := by
  have hbit7 : State.reset.cw.getLsbD 7 = true := by decide
  have hlegal : FlagsLegal State.reset := ⟨rfl, rfl⟩
  exact ⟨hbit7, modesDecoded_reset, hlegal, rfl⟩

/-- `RESET` and a `MODESET` that the encoding admits make the whole invariant; the others keep the configuration. -/
theorem exec_keeps_inv {i : Instr} {s t : State} (hwf : i.wf = true) (h : exec i s = .next t) (hs : Inv s) : Inv t := by
  obtain ⟨hbit7, hdecoded, hlegal, hstb⟩ := hs
  have hdecoded' := exec_keeps_modesDecoded h hdecoded
  have hlegal' := exec_keeps_flagsLegal h hlegal
  cases hc : clearsFlags i with
  | false =>
    obtain ⟨hcw, -, -, -, -, -, -, hstb'⟩ := State.config_eq_iff.1 (exec_config h hc)
    exact ⟨hcw ▸ hbit7, hdecoded', hlegal', hstb'.trans hstb⟩
  | true =>
    cases effect_of_exec h with
    | standard v => exact ⟨hwf, hdecoded', hlegal', rfl⟩
    | reset => exact inv_reset
    | read p | write p | drive p => cases p <;> cases hc
    | readControl | bsr | strobe | acknowledge => cases hc

/-! ### The statements -/

/-- Settles O4: a step is a rest or a decoded operation, and what the decoder answers is well formed. -/
theorem stepKeepsInvariant : Obligations.StepKeepsInvariant := by
  unfold Obligations.StepKeepsInvariant
  intro s t hs h
  rcases step_cases h with ⟨-, rfl⟩ | ⟨w, rest, i, -, hd, hi⟩
  · exact hs
  · exact exec_keeps_inv (wf_of_decode hd) hi hs

/-- Settles O3: the three clauses of the invariant, each at `State.reset`. -/
theorem invariantHoldsAtReset : Obligations.InvariantHoldsAtReset := inv_reset

/-- Settles O2: the machine's start state is `State.reset`, and `RESET` puts it behind the words that wait. -/
theorem machineStartsInTheResetState : Obligations.MachineStartsInTheResetState := by
  unfold Obligations.MachineStartsInTheResetState
  intro s
  exact ⟨exec_of_effect (.reset s), rfl, rfl⟩

/-- Settles O12: with no word to fetch, the step is the rest. -/
theorem idleStepOnlyEmptiesTheAnswer : Obligations.IdleStepOnlyEmptiesTheAnswer := by
  unfold Obligations.IdleStepOnlyEmptiesTheAnswer
  intro s hp
  simp only [step, fetch_nil hp]
  rfl

/-- Settles O26: `State.reset` field by field, with the stream of the state before it. -/
theorem resetFollowsItsRule : Obligations.ResetFollowsItsRule := by
  unfold Obligations.ResetFollowsItsRule
  exact ⟨decodesAs_of_ignoresLowByte (i := .reset) rfl, fun s => exec_of_effect (.reset s)⟩

end Sys2Proof.Machine
end

section
/-! PROOFS. The statements about the access policy (spec/41_access_policy.md) and the accesses of Port A and B
(spec/43_port_access.md), and the facts they rest on: the policy and the port accesses in Mode 0 and Mode 2. -/

namespace Sys2Proof.Machine

/-! ### The policy in Mode 0 and Mode 2 -/

section
variable {g : Group} {s : State}

theorem policy_read_of_mode0 (hm : s.mode g = .mode0) :
    policy (groupPort g) .read s = ((if s.isIn g = true then .ok else .warn), s) := by
  simp only [policy_groupPort, groupPolicy, hm]
  cases s.isIn g <;> rfl

theorem policy_write_of_mode0 (hm : s.mode g = .mode0) :
    policy (groupPort g) .write s = ((if s.isIn g = true then .illegal else .ok), s) := by
  simp only [policy_groupPort, groupPolicy, hm]
  cases s.isIn g <;> rfl

theorem policy_read_of_mode2 (hm : s.modeA = .mode2) :
    policy .A .read s = ((if s.ibf.a = true then .ok else .illegal), s) := by
  simp only [policy, groupPolicy, State.mode, hm]; rfl

theorem policy_write_of_mode2 (hm : s.modeA = .mode2) :
    policy .A .write s = ((if s.obf.a = true then .illegal else .ok), s) := by
  simp only [policy, groupPolicy, State.mode, hm]; rfl

end

/-- A read is judged by direction, by mode or by flag, and never `Unknown`. -/
theorem policy_read_ne_unknown (p : Port) (s : State) : (policy p .read s).1 ≠ .unknown := by
  rcases port_eq_c_or_groupPort p with rfl | ⟨g, rfl⟩
  · exact nofun
  · cases hm : s.mode g with
    | mode0 => rw [policy_read_of_mode0 hm]; cases s.isIn g <;> exact nofun
    | mode1Input => rw [policy_read_of_mode1Input hm]; exact nofun
    | mode1Output => rw [policy_read_of_mode1Output hm]; exact nofun
    | mode2 =>
      cases g with
      | A => rw [groupPort, policy_read_of_mode2 hm]; cases s.ibf.a <;> exact nofun
      | B => exact absurd hm s.modeB.asMode_ne_mode2

/-! ### The port accesses that perform no transition -/

/-- A read whose policy has no side effect changes nothing but the answer. -/
theorem readPort_of_policy {p : Port} {s : State} {o : PolicyOutcome} (h : policy p .read s = (o, s)) :
    readPort p s = (s.giveDiag (outcomeDiag o)).giveByte (returnByte o (s.inp.get p) (s.latch.get p)) := by
  rw [readPort_eq, h]

/-- A write whose policy has no side effect fills the latch and, where the outcome lets it through, the output. -/
theorem writePort_of_policy {p : Port} {v : Byte} {s : State} {o : PolicyOutcome}
    (h : policy p .write (s.setLatch p v) = (o, s.setLatch p v)) :
    writePort p v s =
      if transfersOnWrite o = true then ((s.setLatch p v).giveDiag (outcomeDiag o)).setOut p v
      else (s.setLatch p v).giveDiag (outcomeDiag o) := by
  simp only [writePort, h]

section
variable {g : Group} {s : State}

theorem readPort_of_mode0 (hm : s.mode g = .mode0) :
    readPort (groupPort g) s =
      if s.isIn g = true then (s.giveDiag .ok).giveByte (s.inp.get (groupPort g))
      else (s.giveDiag .warn).giveByte (s.latch.get (groupPort g)) := by
  rw [readPort_of_policy (policy_read_of_mode0 hm)]
  cases s.isIn g <;> rfl

theorem readPort_of_mode2 (hm : s.modeA = .mode2) :
    readPort .A s =
      if s.ibf.a = true then (s.giveDiag .ok).giveByte s.inp.a else (s.giveDiag .illegal).giveByte 0xFF := by
  rw [readPort_of_policy (policy_read_of_mode2 hm)]
  cases s.ibf.a <;> rfl

theorem writePort_of_mode0 (hm : s.mode g = .mode0) (v : Byte) :
    writePort (groupPort g) v s =
      if s.isIn g = true then (s.setLatch (groupPort g) v).giveDiag .illegal
      else ((s.setLatch (groupPort g) v).giveDiag .ok).setOut (groupPort g) v := by
  have hm' : (s.setLatch (groupPort g) v).mode g = .mode0 := by rwa [State.setLatch_mode]
  rw [writePort_of_policy (policy_write_of_mode0 hm'), State.setLatch_isIn]
  cases s.isIn g <;> rfl

theorem writePort_of_mode1Input (hm : s.mode g = .mode1Input) (v : Byte) :
    writePort (groupPort g) v s = (s.setLatch (groupPort g) v).giveDiag .illegal := by
  have hm' : (s.setLatch (groupPort g) v).mode g = .mode1Input := by rwa [State.setLatch_mode]
  rw [writePort_of_policy (policy_write_of_mode1Input hm')]; rfl

theorem writePort_of_mode2 (hm : s.modeA = .mode2) (v : Byte) :
    writePort .A v s =
      if s.obf.a = true then (s.setLatch .A v).giveDiag .illegal
      else ((s.setLatch .A v).giveDiag .ok).setOut .A v := by
  rw [writePort_of_policy (policy_write_of_mode2 (s := s.setLatch .A v) hm), State.setLatch_obf]
  cases s.obf.a <;> rfl

end

/-- Group B is in the mode of Port B, at the start of an operation as before it. -/
theorem State.beginOp_mode_b {s : State} {m : ModeB} (hm : s.modeB = m) : s.beginOp.mode .B = m.asMode :=
  congrArg ModeB.asMode hm

/-! ### The statements about the policy -/

/-- Settles O28: the two readings part where the direction forbids the access. -/
theorem mode0PolicyFollowsTheDirection : Obligations.Mode0PolicyFollowsTheDirection := by
  unfold Obligations.Mode0PolicyFollowsTheDirection
  refine ⟨fun g s hm => ⟨policy_read_of_mode0 hm, policy_write_of_mode0 hm⟩, fun isIn op => ⟨rfl, ?_⟩⟩
  cases isIn <;> cases op <;> decide

/-- Settles O35: a write is `Ok` or `Illegal` (`policy_write_outcome`). -/
theorem noWriteWarnsAndNoPortIsUnknown : Obligations.NoWriteWarnsAndNoPortIsUnknown := by
  unfold Obligations.NoWriteWarnsAndNoPortIsUnknown
  intro p s
  refine ⟨?_, ?_, policy_read_ne_unknown p s⟩
  · rcases policy_write_outcome p s with h | h <;> rw [h] <;> exact nofun
  · rcases policy_write_outcome p s with h | h <;> rw [h] <;> exact nofun

/-- Settles O31: the gate of Mode 2 with its read spelled from the cleared flag. -/
theorem mode2PolicyIsTheGate : Obligations.Mode2PolicyIsTheGate := by
  unfold Obligations.Mode2PolicyIsTheGate
  intro s hm
  refine ⟨?_, policy_write_of_mode2 hm⟩
  rw [policy_read_of_mode2 hm]
  cases s.ibf.a <;> rfl

/-- Settles O32: the two directions decide a write, and nothing decides a read. -/
theorem portCPolicyIgnoresTheModes : Obligations.PortCPolicyIgnoresTheModes := by
  unfold Obligations.PortCPolicyIgnoresTheModes
  intro s
  refine ⟨rfl, ?_⟩
  by_cases inputs : s.cuIn = true ∧ s.clIn = true
  · rw [policy_write_c_of_inputs inputs, if_pos inputs]
  · rw [policy_write_c_of_output inputs, if_neg inputs]

/-! ### The words of the port operations -/

theorem decodesAs_wra : DecodesAs 0x400 0xF00 .wra :=
  decodesAs_of_decode_opWord (cls := 0b01) (sel := 0b00) fun v => decode_encode (i := .wra v) rfl

theorem decodesAs_wrb : DecodesAs 0x500 0xF00 .wrb :=
  decodesAs_of_decode_opWord (cls := 0b01) (sel := 0b01) fun v => decode_encode (i := .wrb v) rfl

theorem decodesAs_setina : DecodesAs 0xC00 0xF00 .setina :=
  decodesAs_of_decode_opWord (cls := 0b11) (sel := 0b00) fun v => decode_encode (i := .setina v) rfl

theorem decodesAs_setinb : DecodesAs 0xD00 0xF00 .setinb :=
  decodesAs_of_decode_opWord (cls := 0b11) (sel := 0b01) fun v => decode_encode (i := .setinb v) rfl

theorem decodesAs_setinc : DecodesAs 0xE00 0xF00 .setinc :=
  decodesAs_of_decode_opWord (cls := 0b11) (sel := 0b10) fun v => decode_encode (i := .setinc v) rfl

/-! ### The statements about the port accesses -/

/-- Settles O15: the read of group A's port in each of the four modes. -/
theorem rdaFollowsItsRule : Obligations.RdaFollowsItsRule := by
  unfold Obligations.RdaFollowsItsRule
  refine ⟨decodesAs_of_ignoresLowByte (i := .rda) rfl, fun s => (exec_readInstr .A s).trans (congrArg _ ?_)⟩
  split
  case h_1 hm => exact readPort_of_mode0 (g := .A) (s := s.beginOp) hm
  case h_2 hm => exact (readPort_of_mode1Input (g := .A) (s := s.beginOp) hm).trans (by rw [cpuRead_eq]; rfl)
  case h_3 hm => exact readPort_of_mode1Output (g := .A) (s := s.beginOp) hm
  case h_4 hm => exact readPort_of_mode2 (s := s.beginOp) hm

/-- Settles O16: the read of group B's port in each of the three modes. -/
theorem rdbFollowsItsRule : Obligations.RdbFollowsItsRule := by
  unfold Obligations.RdbFollowsItsRule
  refine ⟨decodesAs_of_ignoresLowByte (i := .rdb) rfl, fun s => (exec_readInstr .B s).trans (congrArg _ ?_)⟩
  split
  case h_1 hm => exact readPort_of_mode0 (State.beginOp_mode_b hm)
  case h_2 hm => exact (readPort_of_mode1Input (State.beginOp_mode_b hm)).trans (by rw [cpuRead_eq]; rfl)
  case h_3 hm => exact readPort_of_mode1Output (State.beginOp_mode_b hm)

/-- Settles O19: the write of group A's port in each of the four modes. -/
theorem wraFollowsItsRule : Obligations.WraFollowsItsRule := by
  unfold Obligations.WraFollowsItsRule
  refine ⟨decodesAs_wra, fun v s => (exec_writeInstr .A v s).trans (congrArg _ ?_)⟩
  split
  case h_1 hm => exact writePort_of_mode0 (g := .A) (s := s.beginOp) hm v
  case h_2 hm => exact writePort_of_mode1Input (g := .A) (s := s.beginOp) hm v
  case h_3 hm => exact writePort_of_mode1Output (g := .A) (s := s.beginOp) hm v
  case h_4 hm => exact writePort_of_mode2 (s := s.beginOp) hm v

/-- Settles O20: the write of group B's port in each of the three modes. -/
theorem wrbFollowsItsRule : Obligations.WrbFollowsItsRule := by
  unfold Obligations.WrbFollowsItsRule
  refine ⟨decodesAs_wrb, fun v s => (exec_writeInstr .B v s).trans (congrArg _ ?_)⟩
  split
  case h_1 hm => exact writePort_of_mode0 (State.beginOp_mode_b hm) v
  case h_2 hm => exact writePort_of_mode1Input (State.beginOp_mode_b hm) v
  case h_3 hm => exact writePort_of_mode1Output (State.beginOp_mode_b hm) v

/-- Settles O27: the drive of each port, with the three rows that spell it. -/
theorem inputDriveFollowsItsRule : Obligations.InputDriveFollowsItsRule := by
  unfold Obligations.InputDriveFollowsItsRule
  exact ⟨decodesAs_setina, decodesAs_setinb, decodesAs_setinc,
    fun v s => ⟨exec_driveInstr .A v s, exec_driveInstr .B v s, exec_driveInstr .C v s⟩⟩

/-- Settles O53: the policy of a read does nothing or is the CPU-read transition, which clears two flags. -/
theorem readsChangeOnlyHandshakeFlags : Obligations.ReadsChangeOnlyHandshakeFlags := by
  unfold Obligations.ReadsChangeOnlyHandshakeFlags
  intro p s
  refine ⟨_, exec_readInstr p s, ?_, fun g hg => ?_⟩
  · rcases policy_cases p .read s.beginOp with h | ⟨g, -, -, -, h⟩ | ⟨g, -, hop, -, -⟩
    · rw [readPort_eq, h]
      generalize (policy p .read s.beginOp).1 = o
      rfl
    · rw [readPort_eq, h, cpuRead_eq]; rfl
    · cases hop
  · have hflags := readPort_flags p s.beginOp g
    rw [State.beginOp_mode, decide_eq_false hg, GroupFlags.after_no_cause] at hflags
    exact ⟨congrArg GroupFlags.ibf hflags, congrArg GroupFlags.intr hflags⟩

end Sys2Proof.Machine
end

section
/-! PROOFS. The statements about the two operations of the control-word decoder (spec/40_control_decoder.md), and the
facts they rest on: the word of `MODESET`, and the bits that each format reads. -/

namespace Sys2Proof.Machine

/-! ### The two formats -/

theorem decodesAs_modeset : DecodesAs 0x780 0xF80 .modeset := by
  intro w hw
  have hcontrol : decode w = .ok (decodeControl (opData w)) :=
    decode_of_control_bits (getLsbD_of_and_eq hw rfl) (getLsbD_of_and_eq hw rfl) (getLsbD_of_and_eq hw rfl)
      (getLsbD_of_and_eq hw rfl)
  have h7 : (opData w).getLsbD 7 = true := (opData_getLsbD (by decide) w).trans (getLsbD_of_and_eq hw rfl)
  exact hcontrol.trans (congrArg Except.ok (decodeControl_of_standard h7))

/-- 30_encoding.md R56, with Mode 0 asked first. -/
theorem decodeModeB_eq_ite (v : Byte) :
    decodeModeB v =
      if v.getLsbD 2 = false then .mode0 else if v.getLsbD 1 = true then .mode1Input else .mode1Output := by
  unfold decodeModeB controlMB controlDB
  cases v.getLsbD 2 <;> rfl

section
variable {v w : Byte}

/-- Two bytes with the same low nibble have the same bit in it. -/
theorem getLsbD_of_lowNibble_eq (h : v.extractLsb' 0 4 = w.extractLsb' 0 4) {k : Nat} (hk : k < 4) :
    v.getLsbD k = w.getLsbD k := by
  have hbit := congrArg (·.getLsbD k) h
  simpa only [BitVec.getLsbD_extractLsb', hk, decide_true, Bool.true_and, Nat.zero_add] using hbit

/-- `S` and `N` lie in the low nibble (30_encoding.md R54). -/
theorem bsrSet_of_lowNibble_eq (h : v.extractLsb' 0 4 = w.extractLsb' 0 4) : bsrSet v = bsrSet w :=
  getLsbD_of_lowNibble_eq h (by decide)

theorem bsrBitNumber_of_lowNibble_eq (h : v.extractLsb' 0 4 = w.extractLsb' 0 4) : bsrBitNumber v = bsrBitNumber w := by
  refine congrArg BitVec.toNat (BitVec.eq_of_getLsbD_eq fun k hk => ?_)
  have hbit : v.getLsbD (1 + k) = w.getLsbD (1 + k) := getLsbD_of_lowNibble_eq h (by omega)
  rw [BitVec.getLsbD_extractLsb', BitVec.getLsbD_extractLsb', hbit]

end

/-! ### The statements -/

/-- Settles O22: the Standard format field by field, with the two modes spelled from the bits. -/
theorem modesetFollowsItsRule : Obligations.ModesetFollowsItsRule := by
  unfold Obligations.ModesetFollowsItsRule
  refine ⟨decodesAs_modeset, fun v s => ?_⟩
  rw [← decodeModeB_eq_ite]
  exact (exec_of_effect (.standard v s)).trans (congrArg _ (applyStandard_eq v s.beginOp))

/-- Settles O39: the Standard format reads of the state before it the port data and the stream alone. -/
theorem modesetForgetsAndIsIdempotent : Obligations.ModesetForgetsAndIsIdempotent := by
  unfold Obligations.ModesetForgetsAndIsIdempotent
  have hexec : ∀ (v : Byte) (s : State), exec (.modeset v) s = .next (applyStandard v s.beginOp) :=
    fun v s => exec_of_effect (.standard v s)
  refine ⟨fun v s t h => ?_, fun v s₁ s₂ hlatch hout hinp hpending => ?_⟩
  · obtain rfl := Host.Outcome.next.inj ((hexec v s).symm.trans h)
    exact hexec v _
  · rw [hexec, hexec, applyStandard_eq, applyStandard_eq]
    simp only [State.beginOp, hlatch, hout, hinp, hpending]

/-- Settles O41: the replaced bit is told by the low nibble of the byte. -/
theorem bsrIgnoresBitsSixToFour : Obligations.BsrIgnoresBitsSixToFour := by
  unfold Obligations.BsrIgnoresBitsSixToFour
  intro v w s h
  have hbsr : applyBsr v s.beginOp = applyBsr w s.beginOp := by
    rw [applyBsr, applyBsr, bsrBitNumber_of_lowNibble_eq h, bsrSet_of_lowNibble_eq h]
  calc
    exec (.bsr v) s = .next (applyBsr v s.beginOp) := exec_of_effect (.bsr v s)
    _ = .next (applyBsr w s.beginOp) := congrArg _ hbsr
    _ = exec (.bsr w) s := (exec_of_effect (.bsr w s)).symm

end Sys2Proof.Machine
end

section
/-! PROOFS. The statements about the acknowledge, the events and the inert modes (spec/42_handshake.md), and the fact
they rest on: an operation emits the pair of events of the transition it performs, and nothing else. -/

namespace Sys2Proof.Machine

/-! ### The acknowledge -/

theorem decodesAs_ack : DecodesAs 0x900 0xF00 .ack :=
  decodesAs_of_decode_opWord (cls := 0b10) (sel := 0b01) fun g => decode_encode (i := .ack g) rfl

theorem State.mode_b_eq_mode1Output_iff (s : State) : s.mode .B = .mode1Output ↔ s.modeB = .mode1Output :=
  ModeB.asMode_inj (n := .mode1Output)

/-- The acknowledge of 42_handshake.md R106 with its guard written out. -/
theorem acknowledge_eq (g : Group) (s : State) :
    acknowledge g s =
      if s.mode g = .mode1Output then
        { s with
          obf := s.obf.set g true
          intr := s.intr.set g false
          answer := { s.answer with events := s.answer.events ++ [.obf g true 0xFF] ++ [.intr g false] } }
      else s := by
  split
  case isTrue hm => exact acknowledge_of_mode1Output hm
  case isFalse hm => exact acknowledge_of_ne hm

/-! ### The write in Mode 1 Output -/

/-- The latch is filled, and the CPU-write transition puts its byte on the port and announces it
(42_handshake.md R105). -/
theorem writePort_of_mode1Output_eq {g : Group} {s : State} (hm : s.mode g = .mode1Output) (v : Byte) :
    writePort (groupPort g) v s =
      { s with
        latch := s.latch.set (groupPort g) v
        out := s.out.set (groupPort g) v
        obf := s.obf.set g false
        intr := s.intr.set g true
        answer :=
          { s.answer with events := s.answer.events ++ [.obf g false v] ++ [.intr g true], diag := some .ok } } := by
  rw [writePort_of_mode1Output hm, cpuWrite_eq]
  cases g <;> rfl

/-! ### The events of an operation -/

/-- The two events of a transition, with the byte that the group's port drives (42_handshake.md R103 to R108). -/
def triggerEvents (g : Group) (driven : Byte) : Trigger → List Event
  | .strobe => [.ibf g true, .intr g true]
  | .cpuRead => [.ibf g false, .intr g false]
  | .cpuWrite => [.obf g false driven, .intr g true]
  | .acknowledge => [.obf g true 0xFF, .intr g false]

/-- Each event names its group. -/
def Event.group : Event → Group
  | .ibf g _ | .obf g _ _ | .intr g _ | .stbch g _ | .ackch g _ => g

theorem group_of_mem_triggerEvents {k : Trigger} {g : Group} {d : Byte} {e : Event} (h : e ∈ triggerEvents g d k) :
    e.group = g := by
  cases k <;> simp only [triggerEvents, List.mem_cons, List.not_mem_nil, or_false] at h <;>
    rcases h with rfl | rfl <;> rfl

/-- The state after an operation carries no event, or the events of the one transition the operation performs. -/
def EmitsItsTransition (i : Instr) (s t : State) : Prop :=
  t.answer.events = [] ∨
    ∃ k g, performs k g i s = true ∧ t.answer.events = triggerEvents g (t.out.get (groupPort g)) k

theorem performs_cpuRead_readInstr {g : Group} {s : State} (hm : s.mode g = .mode1Input) :
    performs .cpuRead g (readInstr (groupPort g)) s = true := by
  rw [performs_eq, hm]
  cases g <;> rfl

theorem performs_cpuWrite_writeInstr {g : Group} {s : State} (v : Byte) (hm : s.mode g = .mode1Output) :
    performs .cpuWrite g (writeInstr (groupPort g) v) s = true := by
  rw [performs_eq, hm]
  cases g <;> simp [triggerOf, writeInstr, groupPort, triggerActs]

theorem performs_acknowledge_ack {x : Byte} {s : State} (hm : s.mode (groupOf x) = .mode1Output) :
    performs .acknowledge (groupOf x) (.ack x) s = true := by
  rw [performs_eq, hm]
  simp [triggerOf, triggerActs]

theorem emits_readPort (p : Port) (s : State) : EmitsItsTransition (readInstr p) s (readPort p s.beginOp) := by
  rw [readPort_eq]
  rcases policy_cases p .read s.beginOp with h | ⟨g, rfl, -, hm, h⟩ | ⟨g, -, hop, -, -⟩
  · exact .inl (by rw [h]; rfl)
  · refine .inr ⟨.cpuRead, g, performs_cpuRead_readInstr (s.beginOp_mode g ▸ hm), ?_⟩
    rw [h, cpuRead_eq]; rfl
  · cases hop

theorem emits_writePort (p : Port) (v : Byte) (s : State) :
    EmitsItsTransition (writeInstr p v) s (writePort p v s.beginOp) := by
  rcases policy_cases p .write (s.beginOp.setLatch p v) with h | ⟨g, -, hop, -, -⟩ | ⟨g, rfl, -, hm, -⟩
  · refine .inl ?_
    rw [writePort_eq, h]; rfl
  · cases hop
  · rw [State.setLatch_mode] at hm
    refine .inr ⟨.cpuWrite, g, performs_cpuWrite_writeInstr v (s.beginOp_mode g ▸ hm), ?_⟩
    rw [writePort_of_mode1Output_eq hm]
    simp [triggerEvents, Answer.empty]

theorem emits_strobe (x : Byte) (s : State) : EmitsItsTransition (.stb x) s (strobe (groupOf x) s.beginOp) := by
  rw [strobe_eq]
  split
  case isTrue accepted =>
    refine .inr ⟨.strobe, groupOf x, ?_, rfl⟩
    have haccepted := (s.beginOp.strobeAccepted_iff (groupOf x)).2 accepted
    simpa [performs_strobe_stb] using haccepted
  case isFalse => exact .inl rfl

theorem emits_acknowledge (x : Byte) (s : State) :
    EmitsItsTransition (.ack x) s (acknowledge (groupOf x) s.beginOp) := by
  rw [acknowledge_eq]
  split
  case isTrue hm => exact .inr ⟨.acknowledge, groupOf x, performs_acknowledge_ack (s.beginOp_mode (groupOf x) ▸ hm), rfl⟩
  case isFalse => exact .inl rfl

theorem exec_emits {i : Instr} {s t : State} (h : exec i s = .next t) : EmitsItsTransition i s t := by
  cases effect_of_exec h with
  | read p => exact emits_readPort p s
  | write p v => exact emits_writePort p v s
  | strobe x => exact emits_strobe x s
  | acknowledge x => exact emits_acknowledge x s
  | readControl | standard | bsr | reset | drive => exact .inl rfl

/-! ### The statements -/

/-- Settles O25: bit 0 of the identifier picks the group, and `acknowledge_eq` is the rule of that group. -/
theorem ackFollowsItsRule : Obligations.AckFollowsItsRule := by
  unfold Obligations.AckFollowsItsRule
  refine ⟨decodesAs_ack, fun x s => (exec_of_effect (.acknowledge x s)).trans (congrArg Host.Outcome.next ?_)⟩
  rw [acknowledge_eq, groupOf_eq_mod]
  by_cases even : x.toNat % 2 = 0
  · simp only [if_pos even, State.beginOp_mode]; rfl
  · simp only [if_neg even, State.beginOp_mode, State.mode_b_eq_mode1Output_iff]; rfl

/-- Settles O46: no transition of the group is performed, so the operation is no cause for its flags, and any event it
emits is of the other group. -/
theorem handshakeInertOutsideMode1 : Obligations.HandshakeInertOutsideMode1 := by
  unfold Obligations.HandshakeInertOutsideMode1
  intro i s t g hm hc h
  have hflags := exec_flags h g
  rw [flagCauses_of_not_performs hc (performs_of_inert hm · i), GroupFlags.after_no_cause] at hflags
  have hevents : ∀ e ∈ t.answer.events, e.group ≠ g := by
    rcases exec_emits h with hnone | ⟨k, g', hk, hpair⟩
    · rw [hnone]; exact nofun
    · rintro e he rfl
      rw [hpair] at he
      rw [← group_of_mem_triggerEvents he, performs_of_inert hm] at hk
      cases hk
  exact ⟨congrArg GroupFlags.ibf hflags, congrArg GroupFlags.obf hflags, congrArg GroupFlags.intr hflags,
    fun l d => ⟨fun he => hevents _ he rfl, fun he => hevents _ he rfl, fun he => hevents _ he rfl⟩⟩

/-- Settles O47: the levels that a transition announces are the flags it leaves. -/
theorem eventsComeInPairsBufferFirst : Obligations.EventsComeInPairsBufferFirst := by
  unfold Obligations.EventsComeInPairsBufferFirst
  intro i s
  obtain ⟨t, h, -⟩ := exec_eq_next i s
  refine ⟨t, h, (exec_emits h).imp_right ?_⟩
  rintro ⟨k, g, hk, hpair⟩
  have hflags := exec_flags h g
  rw [flagCauses_of_performs hk] at hflags
  have hibf : t.ibf.get g = _ := congrArg GroupFlags.ibf hflags
  have hobf : t.obf.get g = _ := congrArg GroupFlags.obf hflags
  have hintr : t.intr.get g = _ := congrArg GroupFlags.intr hflags
  refine ⟨g, ?_⟩
  rw [hpair, hibf, hobf, hintr]
  cases k with
  | strobe => exact .inl rfl
  | cpuRead => left; simp [triggerEvents, triggerCause, GroupFlags.after]
  | cpuWrite => right; simp [triggerEvents, triggerCause, GroupFlags.after]
  | acknowledge => right; simp [triggerEvents, triggerCause, GroupFlags.after]

/-- Settles O56: the write in Mode 1 Output is the CPU-write transition of the filled latch; it keeps the mode, in which
the acknowledge is a transition too. -/
theorem strobedOutputCycle : Obligations.StrobedOutputCycle := by
  unfold Obligations.StrobedOutputCycle
  intro g v s hm
  have hm₀ : s.beginOp.mode (groupOf g) = .mode1Output := by rwa [State.beginOp_mode]
  have hwrite := exec_writeInstr (groupPort (groupOf g)) v s
  have hack := exec_of_effect (.acknowledge g (writePort (groupPort (groupOf g)) v s.beginOp))
  rw [writePort_of_mode1Output_eq hm₀] at hwrite hack
  rw [acknowledge_of_mode1Output (by exact hm)] at hack
  refine ⟨_, (execAll_cons_of_next hwrite).trans (execAll_cons_of_next hack), ?_⟩
  rw [answersOf_cons_of_next hwrite, answersOf_cons_of_next hack]
  simp [Answer.empty]

end Sys2Proof.Machine
end

section
/-! PROOFS. The statements about the inputs (spec/10_state.md section 3) and about longer behaviours: the strobed byte that
is read back and the dead end of Mode 2 (spec/70_reset_and_hazards.md section 3), and the round trip of a Mode 0 output
(spec/95_test_vectors.md). -/

namespace Sys2Proof.Machine

/-! ### What each shared operation does to the inputs -/

@[simp] theorem strobe_inp (g : Group) (s : State) : (strobe g s).inp = s.inp := by
  unfold strobe; split <;> simp

@[simp] theorem acknowledge_inp (g : Group) (s : State) : (acknowledge g s).inp = s.inp := by
  unfold acknowledge; split <;> simp

@[simp] theorem policy_inp (p : Port) (op : Access) (s : State) : (policy p op s).2.inp = s.inp :=
  (policy_frame p op s).2.1

@[simp] theorem readPort_inp (p : Port) (s : State) : (readPort p s).inp = s.inp := by
  simp [readPort]

@[simp] theorem writePort_inp (p : Port) (v : Byte) (s : State) : (writePort p v s).inp = s.inp := by
  simp only [writePort]; split <;> simp

@[simp] theorem readControl_inp (s : State) : (readControl s).inp = s.inp := rfl
@[simp] theorem applyBsr_inp (v : Byte) (s : State) : (applyBsr v s).inp = s.inp := rfl

theorem driveInput_inp (p : Port) (v : Byte) (s : State) : (driveInput p v s).inp = s.inp.set p v := rfl

theorem drivenPort_driveInstr (p : Port) (v : Byte) : drivenPort (driveInstr p v) = some p := by
  cases p <;> rfl

/-- Beside `RESET` and the peer's drive of its port, no operation changes an input (10_state.md R12). -/
theorem exec_inp_cases {i : Instr} {s t : State} (h : exec i s = .next t) (p : Port) :
    i = .reset ∨ i = driveInstr p (t.inp.get p) ∨ t.inp.get p = s.inp.get p := by
  cases effect_of_exec h with
  | reset => exact .inl rfl
  | drive q v =>
    right
    rw [driveInput_inp, PortBytes.get_set]
    split
    case isTrue hpq => exact .inl (by rw [hpq])
    case isFalse => exact .inr rfl
  | read | readControl | write | standard | bsr | strobe | acknowledge => exact .inr (.inr (by simp))

/-! ### Sequences of operations -/

/-- What every operation of a sequence keeps, the sequence keeps. -/
theorem execAll_keeps {P : State → Prop} {is : List Instr}
    (hkeeps : ∀ i ∈ is, ∀ s t, exec i s = .next t → P s → P t) {s t : State} (h : execAll is s = .next t) (hs : P s) :
    P t := by
  induction is generalizing s with
  | nil => cases h; exact hs
  | cons i is ih =>
    obtain ⟨hi, his⟩ := List.forall_mem_cons.mp hkeeps
    obtain ⟨r, hr, -⟩ := exec_eq_next i s
    rw [execAll_cons_of_next hr] at h
    exact ih his h (hi s r hr hs)

/-- The input of a port that nobody drives is held, unless the device is reset. -/
theorem execAll_holds_input {p : Port} {is : List Instr} (hheld : ∀ i ∈ is, i ≠ .reset ∧ drivenPort i ≠ some p)
    {s t : State} (h : execAll is s = .next t) : t.inp.get p = s.inp.get p := by
  refine execAll_keeps (P := fun r => r.inp.get p = s.inp.get p) (fun i hi r r' hr hs => ?_) h rfl
  obtain ⟨hreset, hdrive⟩ := hheld i hi
  rcases exec_inp_cases hr p with hi | hi | hsame
  · exact absurd hi hreset
  · exact absurd (hi ▸ drivenPort_driveInstr p _) hdrive
  · exact hsame.trans hs

/-! ### Port A as a Mode 0 output -/

theorem decodeModeA_of_mode0 {v : Byte} (h : v.extractLsb' 5 2 = 0b00#2) : decodeModeA v = .mode0 := by
  rw [decodeModeA, controlMA, if_pos h]

section
variable {s : State} (hm : s.mode .A = .mode0) (hout : s.isIn .A = false)
include hm hout

theorem writePort_a_of_mode0_output (v : Byte) :
    writePort .A v s = ((s.setLatch .A v).giveDiag .ok).setOut .A v := by
  rw [← groupPort, writePort_of_mode0 hm, hout, if_neg Bool.false_ne_true]

theorem readPort_a_of_mode0_output : readPort .A s = (s.giveDiag .warn).giveByte s.latch.a := by
  rw [← groupPort, readPort_of_mode0 hm, hout, if_neg Bool.false_ne_true]; rfl

end

/-! ### The statements -/

/-- Settles O51: `exec_inp_cases`, where the input changes. -/
theorem inputsHaveOnlyTheirDrivers : Obligations.InputsHaveOnlyTheirDrivers := by
  unfold Obligations.InputsHaveOnlyTheirDrivers
  intro i s t p h hne
  rcases exec_inp_cases h p with hi | hi | hsame
  · exact .inl hi
  · exact .inr hi
  · exact absurd hsame hne

/-- Settles O55: the strobe latches the input, nothing between changes that input, and a read in Mode 1 Input returns
it. -/
theorem heldStrobedByteIsReadBack : Obligations.HeldStrobedByteIsReadBack := by
  unfold Obligations.HeldStrobedByteIsReadBack
  intro g is s s₁ s₂ hm hempty hheld hstrobe hbetween hm₂
  have hheldInput := execAll_holds_input hheld hbetween
  obtain ⟨-, -, t, hread, hret, -⟩ := mode1InputPolicy (groupOf g) s₂ hm₂
  refine ⟨t, hread, hret.trans (congrArg some ?_)⟩
  obtain rfl := Host.Outcome.next.inj ((exec_of_effect (.strobe g s)).symm.trans hstrobe)
  have haccepted : s.beginOp.strobeAccepted (groupOf g) = true :=
    (State.strobeAccepted_iff _ _).2 ⟨(s.beginOp_mode _).trans hm, hempty⟩
  rw [hheldInput, strobe_inp, strobe_latch, if_pos haccepted, PortBytes.get_set_same]

/-- Settles O57: the invariant holds both flags of the gate clear. -/
theorem mode2IsADeadEndForInput : Obligations.Mode2IsADeadEndForInput := by
  unfold Obligations.Mode2IsADeadEndForInput
  intro v s hs hm
  obtain ⟨-, -, ⟨hlegal, -⟩, -⟩ := hs
  obtain ⟨⟨hibf, hobf⟩, -⟩ : (s.ibf.a = false ∧ s.obf.a = false) ∧ s.intr.a = false := by
    simpa [hm, flagsLegal] using hlegal
  have hread := readPort_of_mode2 (s := s.beginOp) hm
  have hwrite := writePort_of_mode2 (s := s.beginOp) hm v
  rw [State.beginOp_ibf, hibf, if_neg Bool.false_ne_true] at hread
  rw [State.beginOp_obf, hobf, if_neg Bool.false_ne_true] at hwrite
  exact ⟨(exec_readInstr .A s).trans (congrArg _ hread), (exec_writeInstr .A v s).trans (congrArg _ hwrite)⟩

/-- Settles O54: the mode and direction that `MODESET` sets are kept by the write, so the write is let through and the
read returns the latch that it filled. -/
theorem mode0OutputRoundTrip : Obligations.Mode0OutputRoundTrip := by
  unfold Obligations.Mode0OutputRoundTrip
  intro v x s hMA hDA
  have hset := exec_of_effect (.standard v s)
  have hmode : (applyStandard v s.beginOp).mode .A = .mode0 := decodeModeA_of_mode0 hMA
  have hout : (applyStandard v s.beginOp).isIn .A = false := hDA
  generalize applyStandard v s.beginOp = s₁ at hset hmode hout
  have hwrite := exec_writeInstr .A x s₁
  rw [writePort_a_of_mode0_output (s := s₁.beginOp) hmode hout] at hwrite
  have hread := exec_readInstr .A (((s₁.beginOp.setLatch .A x).giveDiag .ok).setOut .A x)
  rw [readPort_a_of_mode0_output (by exact hmode) (by exact hout)] at hread
  exact ⟨_, (execAll_cons_of_next hset).trans ((execAll_cons_of_next hwrite).trans (execAll_cons_of_next hread)),
    rfl, rfl⟩

end Sys2Proof.Machine
end

section
/-! PROOFS. The statement about the state that no rule reads (spec/10_state.md sections 4, 5 and 7): with that state
erased, every operation still answers and goes on as it does. -/

namespace Sys2Proof.Machine

/-! ### The state with the unread fields erased -/

/-- The state with a fixed value in every field that no rule reads to answer an operation, and with nothing presented. -/
def State.readPart (s : State) : State :=
  { s with
    latch := { s.latch with c := 0x00 }
    out := ⟨0x00, 0x00, 0x00⟩
    cw := 0x00
    obf := { s.obf with b := false }
    intr := ⟨false, false⟩
    stbActive := ⟨false, false⟩
    pending := [] }

theorem readPart_beginOp_eq_of_sameReadState {s t : State} (h : SameReadState s t) :
    s.beginOp.readPart = t.beginOp.readPart := by
  obtain ⟨hla, hlb, hinp, hma, hmb, ha, hb, hcu, hcl, hibf, hobf⟩ := h
  simp only [State.readPart, State.beginOp, hla, hlb, hinp, hma, hmb, ha, hb, hcu, hcl, hibf, hobf]

/-! ### Every shared operation does the same on the read part -/

section
variable (s : State)

theorem strobe_readPart (g : Group) : (strobe g s.readPart).readPart = (strobe g s).readPart := by
  have haccepted : s.readPart.strobeAccepted g = s.strobeAccepted g := rfl
  rw [strobe, strobe, haccepted, apply_ite State.readPart, apply_ite State.readPart]
  cases g <;> rfl

theorem acknowledge_readPart (g : Group) : (acknowledge g s.readPart).readPart = (acknowledge g s).readPart := by
  have hmode : s.readPart.mode g = s.mode g := rfl
  rw [acknowledge, acknowledge, hmode, apply_ite State.readPart, apply_ite State.readPart]
  cases g <;> rfl

theorem cpuRead_readPart (g : Group) : (cpuRead g s.readPart).readPart = (cpuRead g s).readPart := by
  cases g <;> rfl

theorem cpuWrite_readPart (g : Group) : (cpuWrite g s.readPart).readPart = (cpuWrite g s).readPart := by
  cases g <;> rfl

theorem groupPolicy_readPart (g : Group) (op : Access) :
    (groupPolicy g op s.readPart).1 = (groupPolicy g op s).1 ∧
    (groupPolicy g op s.readPart).2.readPart = (groupPolicy g op s).2.readPart := by
  have hmode : s.readPart.mode g = s.mode g := rfl
  unfold groupPolicy
  rw [hmode]
  cases s.mode g with
  | mode0 => exact ⟨rfl, rfl⟩
  | mode1Input =>
    cases op with
    | read => exact ⟨rfl, cpuRead_readPart s g⟩
    | write => exact ⟨rfl, rfl⟩
  | mode1Output =>
    cases op with
    | read => exact ⟨rfl, rfl⟩
    | write => exact ⟨rfl, cpuWrite_readPart s g⟩
  | mode2 => exact ⟨rfl, rfl⟩

theorem policy_readPart (p : Port) (op : Access) :
    (policy p op s.readPart).1 = (policy p op s).1 ∧
    (policy p op s.readPart).2.readPart = (policy p op s).2.readPart := by
  rcases port_eq_c_or_groupPort p with rfl | ⟨g, rfl⟩
  · exact ⟨rfl, rfl⟩
  · simp only [policy_groupPort]; exact groupPolicy_readPart s g op

/-- The byte that an outcome picks from `latch[C]` is never picked, for no read of Port C has the outcome `Warn`. -/
theorem readPort_readPart (p : Port) : (readPort p s.readPart).readPart = (readPort p s).readPart := by
  rcases port_eq_c_or_groupPort p with rfl | ⟨g, rfl⟩
  · rfl
  · obtain ⟨houtcome, hstate⟩ := policy_readPart s (groupPort g) .read
    have hlatch : s.readPart.latch.get (groupPort g) = s.latch.get (groupPort g) := by cases g <;> rfl
    have hinp : s.readPart.inp = s.inp := rfl
    rw [readPort_eq, readPort_eq, houtcome, hlatch, hinp]
    exact congrArg (fun t : State => (t.giveDiag _).giveByte _) hstate

/-- Of the whole write only the policy's effect and the advisory outcome are in the read part. -/
theorem readPart_writePort (p : Port) (v : Byte) :
    (writePort p v s).readPart =
      (policy p .write (s.setLatch p v)).2.readPart.giveDiag (outcomeDiag (policy p .write (s.setLatch p v)).1) := by
  rw [writePort_eq]; rfl

theorem writePort_readPart (p : Port) (v : Byte) : (writePort p v s.readPart).readPart = (writePort p v s).readPart := by
  have hlatch : (s.readPart.setLatch p v).readPart = (s.setLatch p v).readPart := by cases p <;> rfl
  obtain ⟨houtcome, hstate⟩ := policy_readPart (s.readPart.setLatch p v) p .write
  obtain ⟨houtcome', hstate'⟩ := policy_readPart (s.setLatch p v) p .write
  rw [readPart_writePort, readPart_writePort, ← houtcome, ← houtcome', ← hstate, ← hstate', hlatch]

end

/-- What an operation makes of the read part alone has the read part of what it makes of the whole state. -/
theorem exec_readPart {i : Instr} {s t : State} (h : exec i s = .next t) :
    ∃ r, exec i s.beginOp.readPart = .next r ∧ r.readPart = t.readPart := by
  cases effect_of_exec h with
  | read p => exact ⟨_, exec_readInstr p _, readPort_readPart s.beginOp p⟩
  | write p v => exact ⟨_, exec_writeInstr p v _, writePort_readPart s.beginOp p v⟩
  | strobe x => exact ⟨_, exec_of_effect (.strobe x _), strobe_readPart s.beginOp (groupOf x)⟩
  | acknowledge x => exact ⟨_, exec_of_effect (.acknowledge x _), acknowledge_readPart s.beginOp (groupOf x)⟩
  | drive p v => exact ⟨_, exec_driveInstr p v _, by cases p <;> rfl⟩
  | readControl => exact ⟨_, exec_of_effect (.readControl _), rfl⟩
  | standard v => exact ⟨_, exec_of_effect (.standard v _), rfl⟩
  | bsr v => exact ⟨_, exec_of_effect (.bsr v _), rfl⟩
  | reset => exact ⟨_, exec_of_effect (.reset _), rfl⟩

theorem readPart_eq_of_exec {i : Instr} {s₁ s₂ t₁ t₂ : State} (hs : s₁.beginOp.readPart = s₂.beginOp.readPart)
    (h₁ : exec i s₁ = .next t₁) (h₂ : exec i s₂ = .next t₂) : t₁.readPart = t₂.readPart := by
  obtain ⟨r₁, hr₁, ht₁⟩ := exec_readPart h₁
  obtain ⟨r₂, hr₂, ht₂⟩ := exec_readPart h₂
  obtain rfl : r₁ = r₂ := Host.Outcome.next.inj (hr₁.symm.trans (hs ▸ hr₂))
  exact ht₁.symm.trans ht₂

/-- The answer is in the read part, so equal read parts give equal answers, one operation after another. -/
theorem answersOf_eq_of_readPart_eq (is : List Instr) {s₁ s₂ : State}
    (hs : s₁.beginOp.readPart = s₂.beginOp.readPart) : answersOf is s₁ = answersOf is s₂ := by
  induction is generalizing s₁ s₂ with
  | nil => rfl
  | cons i is ih =>
    obtain ⟨t₁, h₁, -⟩ := exec_eq_next i s₁
    obtain ⟨t₂, h₂, -⟩ := exec_eq_next i s₂
    have ht := readPart_eq_of_exec hs h₁ h₂
    have hanswer : t₁.answer = t₂.answer := (congrArg State.answer ht :)
    have hnext : t₁.beginOp.readPart = t₂.beginOp.readPart := (congrArg State.beginOp ht :)
    rw [answersOf_cons_of_next h₁, answersOf_cons_of_next h₂, hanswer, ih hnext]

/-! ### The statement -/

/-- Settles O58: states that agree on every field some rule reads have one read part. -/
theorem unreadStateNeverReachesAnAnswer : Obligations.UnreadStateNeverReachesAnAnswer := by
  unfold Obligations.UnreadStateNeverReachesAnAnswer
  intro is s t h
  exact answersOf_eq_of_readPart_eq is (readPart_beginOp_eq_of_sameReadState h)

end Sys2Proof.Machine
end
